-- ==== Sys2Proof/Word.lean ====
section
/-! DEFINITION. The two word types of the simple6502 CORE (00_scope.md R10). -/

namespace Sys2Proof

/-- `u8`: a register, a stream byte, a memory byte. -/
abbrev Byte := BitVec 8

/-- `u16`: SP, PC and every effective address. -/
abbrev Word := BitVec 16

/-- `zext16`: a byte widened with zero high bits. -/
abbrev zext16 (b : Byte) : Word := b.zeroExtend 16

end Sys2Proof
end

