-- ==== Sys2Proof/Config.lean ====
section
/-! DEFINITION. The parameters of 00_scope.md R9: the fixed ones as named constants, the launch parameters as one
record. A model takes the launch parameters as arguments; the record stands in State, so that every statement over
all states covers every value of every parameter (log 1). -/

namespace Sys2Proof

/-- `MEM_SIZE`. -/
abbrev memSize : Nat := 8192

/-- `SP_RESET`. -/
def spReset : Word := 0x01FF

/-- `MAX_LEN`. -/
abbrev maxLen : Nat := 3

/-- The bound on the stream length `L`. -/
abbrev maxStream : Nat := 65536

/-- `OOR_POLICY`: what a data access at or above `memSize` does (20_memory.md R51). -/
inductive OorPolicy where
  | fault
  | mask13
deriving DecidableEq, Repr

/-- `TXS_MODE`: how TXS widens X to SP (44_transfer_stack_flag.md R205). -/
inductive TxsMode where
  | zext
  | page1
deriving DecidableEq, Repr

/-- The launch parameters, with the defaults of R9. -/
structure Config where
  /-- `OOR_POLICY` -/
  oorPolicy : OorPolicy := .fault
  /-- `PTR_WRAP` (40_dispatch_addressing.md R112) -/
  ptrWrap : Bool := false
  /-- `PLA_SETS_NZ` (44_transfer_stack_flag.md R211) -/
  plaSetsNZ : Bool := false
  /-- `TXS_MODE` -/
  txsMode : TxsMode := .zext
  /-- `IMPL_SET`, as the opcodes of the map left out of it (30_encoding.md R88; log 8) -/
  implExcluded : List Byte := []
  /-- `MEM_INIT`, as the cells that differ from 0x00 (70_reset_and_hazards.md R333) -/
  memInit : List Host.Cell := []
deriving DecidableEq, Repr

/-- Every parameter at its default. -/
def Config.default : Config := {}

end Sys2Proof
end

