-- ==== Sys2Proof/Syntax.lean ====
section
/-! DEFINITION. Syntax of the simple6502 CORE: one constructor of `Instr` for each row of
spec/opcode_table.json, with the operand bytes of its format (30_encoding.md R81, R83) as typed fields,
and the mnemonic (30_encoding.md R86) of each constructor. -/

namespace Sys2Proof

/-- The 55 mnemonics of 30_encoding.md R86, and the catch-all row `(undefined)` (40_dispatch_addressing.md R104). -/
inductive Mnemonic where
  -- Load and store
  | lda | ldx | ldy | sta | stx | sty
  -- Logical and arithmetic
  | ora | and | eor | adc | sbc
  -- Shift, rotate, increment, decrement
  | asl | lsr | rol | ror | inc | dec | inx | iny | dex | dey
  -- Transfer, stack, flag
  | tax | txa | tay | tya | tsx | txs | pha | pla | php | plp | clc | sec | cli | sei | cld | sed | clv
  -- Inert
  | brk | bpl | bmi | bvc | bvs | bcc | bcs | bne | beq | jmp | jsr | rts | rti | cmp | cpx | cpy | bit
  -- every other byte
  | undefined
deriving DecidableEq, Repr

/-- The instructions, one constructor a row of the opcode table: the mnemonic and, where it has several forms,
its addressing mode. `v` is an immediate byte, `zp` a zero-page byte, `rel` a branch offset byte, `addr` the
16-bit word of the two operand bytes. The byte of an undefined opcode is kept, so that its word can be written
back. -/
inductive Instr where
  -- Load and store (41_load_store.md)
  | ldaImm (v : Byte) | ldaZp (zp : Byte) | ldaZpX (zp : Byte) | ldaAbs (addr : Word) | ldaAbsX (addr : Word) | ldaAbsY (addr : Word) | ldaIndX (zp : Byte) | ldaIndY (zp : Byte)
  | ldxImm (v : Byte) | ldxZp (zp : Byte) | ldxZpY (zp : Byte) | ldxAbs (addr : Word) | ldxAbsY (addr : Word)
  | ldyImm (v : Byte) | ldyZp (zp : Byte) | ldyZpX (zp : Byte) | ldyAbs (addr : Word) | ldyAbsX (addr : Word)
  | staZp (zp : Byte) | staZpX (zp : Byte) | staAbs (addr : Word) | staAbsX (addr : Word) | staAbsY (addr : Word) | staIndX (zp : Byte) | staIndY (zp : Byte)
  | stxZp (zp : Byte) | stxZpY (zp : Byte) | stxAbs (addr : Word)
  | styZp (zp : Byte) | styZpX (zp : Byte) | styAbs (addr : Word)
  -- Logical and arithmetic (42_logic_arith.md)
  | oraImm (v : Byte) | oraZp (zp : Byte) | oraZpX (zp : Byte) | oraAbs (addr : Word) | oraAbsX (addr : Word) | oraAbsY (addr : Word) | oraIndX (zp : Byte) | oraIndY (zp : Byte)
  | andImm (v : Byte) | andZp (zp : Byte) | andZpX (zp : Byte) | andAbs (addr : Word) | andAbsX (addr : Word) | andAbsY (addr : Word) | andIndX (zp : Byte) | andIndY (zp : Byte)
  | eorImm (v : Byte) | eorZp (zp : Byte) | eorZpX (zp : Byte) | eorAbs (addr : Word) | eorAbsX (addr : Word) | eorAbsY (addr : Word) | eorIndX (zp : Byte) | eorIndY (zp : Byte)
  | adcImm (v : Byte) | adcZp (zp : Byte) | adcZpX (zp : Byte) | adcAbs (addr : Word) | adcAbsX (addr : Word) | adcAbsY (addr : Word) | adcIndX (zp : Byte) | adcIndY (zp : Byte)
  | sbcImm (v : Byte) | sbcZp (zp : Byte) | sbcZpX (zp : Byte) | sbcAbs (addr : Word) | sbcAbsX (addr : Word) | sbcAbsY (addr : Word) | sbcIndX (zp : Byte) | sbcIndY (zp : Byte)
  -- Shift, rotate, increment, decrement (43_shift_incdec.md)
  | aslAcc | aslZp (zp : Byte) | aslZpX (zp : Byte) | aslAbs (addr : Word) | aslAbsX (addr : Word)
  | lsrAcc | lsrZp (zp : Byte) | lsrZpX (zp : Byte) | lsrAbs (addr : Word) | lsrAbsX (addr : Word)
  | rolAcc | rolZp (zp : Byte) | rolZpX (zp : Byte) | rolAbs (addr : Word) | rolAbsX (addr : Word)
  | rorAcc | rorZp (zp : Byte) | rorZpX (zp : Byte) | rorAbs (addr : Word) | rorAbsX (addr : Word)
  | incZp (zp : Byte) | incZpX (zp : Byte) | incAbs (addr : Word) | incAbsX (addr : Word)
  | decZp (zp : Byte) | decZpX (zp : Byte) | decAbs (addr : Word) | decAbsX (addr : Word)
  | inx
  | iny
  | dex
  | dey
  -- Transfer, stack, flag (44_transfer_stack_flag.md)
  | tax
  | txa
  | tay
  | tya
  | tsx
  | txs
  | pha
  | pla
  | php
  | plp
  | clc
  | sec
  | cli
  | sei
  | cld
  | sed
  | clv
  -- Inert (45_inert.md)
  | brk
  | bpl (rel : Byte)
  | bmi (rel : Byte)
  | bvc (rel : Byte)
  | bvs (rel : Byte)
  | bcc (rel : Byte)
  | bcs (rel : Byte)
  | bne (rel : Byte)
  | beq (rel : Byte)
  | jmpAbs (addr : Word) | jmpInd (addr : Word)
  | jsr (addr : Word)
  | rts
  | rti
  | cmpImm (v : Byte) | cmpZp (zp : Byte) | cmpZpX (zp : Byte) | cmpAbs (addr : Word) | cmpAbsX (addr : Word) | cmpAbsY (addr : Word) | cmpIndX (zp : Byte) | cmpIndY (zp : Byte)
  | cpxImm (v : Byte) | cpxZp (zp : Byte) | cpxAbs (addr : Word)
  | cpyImm (v : Byte) | cpyZp (zp : Byte) | cpyAbs (addr : Word)
  | bitZp (zp : Byte) | bitAbs (addr : Word)
  -- Every byte outside the map or outside IMPL_SET (40_dispatch_addressing.md R104)
  | undefined (op : Byte)
deriving DecidableEq, Repr

/-- The mnemonic of an instruction (30_encoding.md R86). -/
def Instr.mnemonic : Instr → Mnemonic
  | .ldaImm _ | .ldaZp _ | .ldaZpX _ | .ldaAbs _ | .ldaAbsX _ | .ldaAbsY _ | .ldaIndX _ | .ldaIndY _ => .lda
  | .ldxImm _ | .ldxZp _ | .ldxZpY _ | .ldxAbs _ | .ldxAbsY _ => .ldx
  | .ldyImm _ | .ldyZp _ | .ldyZpX _ | .ldyAbs _ | .ldyAbsX _ => .ldy
  | .staZp _ | .staZpX _ | .staAbs _ | .staAbsX _ | .staAbsY _ | .staIndX _ | .staIndY _ => .sta
  | .stxZp _ | .stxZpY _ | .stxAbs _ => .stx
  | .styZp _ | .styZpX _ | .styAbs _ => .sty
  | .oraImm _ | .oraZp _ | .oraZpX _ | .oraAbs _ | .oraAbsX _ | .oraAbsY _ | .oraIndX _ | .oraIndY _ => .ora
  | .andImm _ | .andZp _ | .andZpX _ | .andAbs _ | .andAbsX _ | .andAbsY _ | .andIndX _ | .andIndY _ => .and
  | .eorImm _ | .eorZp _ | .eorZpX _ | .eorAbs _ | .eorAbsX _ | .eorAbsY _ | .eorIndX _ | .eorIndY _ => .eor
  | .adcImm _ | .adcZp _ | .adcZpX _ | .adcAbs _ | .adcAbsX _ | .adcAbsY _ | .adcIndX _ | .adcIndY _ => .adc
  | .sbcImm _ | .sbcZp _ | .sbcZpX _ | .sbcAbs _ | .sbcAbsX _ | .sbcAbsY _ | .sbcIndX _ | .sbcIndY _ => .sbc
  | .aslAcc | .aslZp _ | .aslZpX _ | .aslAbs _ | .aslAbsX _ => .asl
  | .lsrAcc | .lsrZp _ | .lsrZpX _ | .lsrAbs _ | .lsrAbsX _ => .lsr
  | .rolAcc | .rolZp _ | .rolZpX _ | .rolAbs _ | .rolAbsX _ => .rol
  | .rorAcc | .rorZp _ | .rorZpX _ | .rorAbs _ | .rorAbsX _ => .ror
  | .incZp _ | .incZpX _ | .incAbs _ | .incAbsX _ => .inc
  | .decZp _ | .decZpX _ | .decAbs _ | .decAbsX _ => .dec
  | .inx => .inx
  | .iny => .iny
  | .dex => .dex
  | .dey => .dey
  | .tax => .tax
  | .txa => .txa
  | .tay => .tay
  | .tya => .tya
  | .tsx => .tsx
  | .txs => .txs
  | .pha => .pha
  | .pla => .pla
  | .php => .php
  | .plp => .plp
  | .clc => .clc
  | .sec => .sec
  | .cli => .cli
  | .sei => .sei
  | .cld => .cld
  | .sed => .sed
  | .clv => .clv
  | .brk => .brk
  | .bpl _ => .bpl
  | .bmi _ => .bmi
  | .bvc _ => .bvc
  | .bvs _ => .bvs
  | .bcc _ => .bcc
  | .bcs _ => .bcs
  | .bne _ => .bne
  | .beq _ => .beq
  | .jmpAbs _ | .jmpInd _ => .jmp
  | .jsr _ => .jsr
  | .rts => .rts
  | .rti => .rti
  | .cmpImm _ | .cmpZp _ | .cmpZpX _ | .cmpAbs _ | .cmpAbsX _ | .cmpAbsY _ | .cmpIndX _ | .cmpIndY _ => .cmp
  | .cpxImm _ | .cpxZp _ | .cpxAbs _ => .cpx
  | .cpyImm _ | .cpyZp _ | .cpyAbs _ => .cpy
  | .bitZp _ | .bitAbs _ => .bit
  | .undefined _ => .undefined

end Sys2Proof
end

