-- ==== Sys2Proof/Decode.lean ====
section
/-! DEFINITION. The decoder and the encoder of the simple6502 CORE (30_encoding.md).
The decoder selects the operation and the mode from the whole opcode byte through the map of R85 (R84 forbids
building it from bit fields); it is total on byte lists and refuses, by name, a list that does not hold the whole
instruction. The encoder is written from the table of R86 by mnemonic. -/

namespace Sys2Proof

/-! ## Byte order (20_memory.md R54, 30_encoding.md R83) -/

/-- The 16-bit word of a high and a low byte: `(hi << 8) | lo`. -/
def wordOf (hi lo : Byte) : Word := hi ++ lo

/-- Bits 7:0 of a word, the byte stored first. -/
def lowByte (w : Word) : Byte := w.extractLsb' 0 8

/-- Bits 15:8 of a word, the byte stored second. -/
def highByte (w : Word) : Byte := w.extractLsb' 8 8

/-! ## The opcode map (30_encoding.md R85) -/

/-- What a cell of the opcode map selects: an instruction of format F1, or the instruction a format F2 or F3
operand makes (R81). -/
inductive Format where
  | f1 (i : Instr)
  | f2 (i : Byte → Instr)
  | f3 (i : Word → Instr)

/-- Length of an instruction of a format, in bytes (R82). -/
def Format.length : Format → Nat
  | .f1 _ => 1
  | .f2 _ => 2
  | .f3 _ => 3

/-- The cells of the map in rows 0x to 3x. -/
def opcodeRows0 : List (Byte × Format) := [
  (0x00, .f1 .brk), (0x01, .f2 .oraIndX), (0x05, .f2 .oraZp), (0x06, .f2 .aslZp),
  (0x08, .f1 .php), (0x09, .f2 .oraImm), (0x0A, .f1 .aslAcc), (0x0D, .f3 .oraAbs),
  (0x0E, .f3 .aslAbs),
  (0x10, .f2 .bpl), (0x11, .f2 .oraIndY), (0x15, .f2 .oraZpX), (0x16, .f2 .aslZpX),
  (0x18, .f1 .clc), (0x19, .f3 .oraAbsY), (0x1D, .f3 .oraAbsX), (0x1E, .f3 .aslAbsX),
  (0x20, .f3 .jsr), (0x21, .f2 .andIndX), (0x24, .f2 .bitZp), (0x25, .f2 .andZp),
  (0x26, .f2 .rolZp), (0x28, .f1 .plp), (0x29, .f2 .andImm), (0x2A, .f1 .rolAcc),
  (0x2C, .f3 .bitAbs), (0x2D, .f3 .andAbs), (0x2E, .f3 .rolAbs),
  (0x30, .f2 .bmi), (0x31, .f2 .andIndY), (0x35, .f2 .andZpX), (0x36, .f2 .rolZpX),
  (0x38, .f1 .sec), (0x39, .f3 .andAbsY), (0x3D, .f3 .andAbsX), (0x3E, .f3 .rolAbsX)]

/-- The cells of the map in rows 4x to 7x. -/
def opcodeRows1 : List (Byte × Format) := [
  (0x40, .f1 .rti), (0x41, .f2 .eorIndX), (0x45, .f2 .eorZp), (0x46, .f2 .lsrZp),
  (0x48, .f1 .pha), (0x49, .f2 .eorImm), (0x4A, .f1 .lsrAcc), (0x4C, .f3 .jmpAbs),
  (0x4D, .f3 .eorAbs), (0x4E, .f3 .lsrAbs),
  (0x50, .f2 .bvc), (0x51, .f2 .eorIndY), (0x55, .f2 .eorZpX), (0x56, .f2 .lsrZpX),
  (0x58, .f1 .cli), (0x59, .f3 .eorAbsY), (0x5D, .f3 .eorAbsX), (0x5E, .f3 .lsrAbsX),
  (0x60, .f1 .rts), (0x61, .f2 .adcIndX), (0x65, .f2 .adcZp), (0x66, .f2 .rorZp),
  (0x68, .f1 .pla), (0x69, .f2 .adcImm), (0x6A, .f1 .rorAcc), (0x6C, .f3 .jmpInd),
  (0x6D, .f3 .adcAbs), (0x6E, .f3 .rorAbs),
  (0x70, .f2 .bvs), (0x71, .f2 .adcIndY), (0x75, .f2 .adcZpX), (0x76, .f2 .rorZpX),
  (0x78, .f1 .sei), (0x79, .f3 .adcAbsY), (0x7D, .f3 .adcAbsX), (0x7E, .f3 .rorAbsX)]

/-- The cells of the map in rows 8x to Bx. -/
def opcodeRows2 : List (Byte × Format) := [
  (0x81, .f2 .staIndX), (0x84, .f2 .styZp), (0x85, .f2 .staZp), (0x86, .f2 .stxZp),
  (0x88, .f1 .dey), (0x8A, .f1 .txa), (0x8C, .f3 .styAbs), (0x8D, .f3 .staAbs),
  (0x8E, .f3 .stxAbs),
  (0x90, .f2 .bcc), (0x91, .f2 .staIndY), (0x94, .f2 .styZpX), (0x95, .f2 .staZpX),
  (0x96, .f2 .stxZpY), (0x98, .f1 .tya), (0x99, .f3 .staAbsY), (0x9A, .f1 .txs),
  (0x9D, .f3 .staAbsX),
  (0xA0, .f2 .ldyImm), (0xA1, .f2 .ldaIndX), (0xA2, .f2 .ldxImm), (0xA4, .f2 .ldyZp),
  (0xA5, .f2 .ldaZp), (0xA6, .f2 .ldxZp), (0xA8, .f1 .tay), (0xA9, .f2 .ldaImm),
  (0xAA, .f1 .tax), (0xAC, .f3 .ldyAbs), (0xAD, .f3 .ldaAbs), (0xAE, .f3 .ldxAbs),
  (0xB0, .f2 .bcs), (0xB1, .f2 .ldaIndY), (0xB4, .f2 .ldyZpX), (0xB5, .f2 .ldaZpX),
  (0xB6, .f2 .ldxZpY), (0xB8, .f1 .clv), (0xB9, .f3 .ldaAbsY), (0xBA, .f1 .tsx),
  (0xBC, .f3 .ldyAbsX), (0xBD, .f3 .ldaAbsX), (0xBE, .f3 .ldxAbsY)]

/-- The cells of the map in rows Cx to Fx. -/
def opcodeRows3 : List (Byte × Format) := [
  (0xC0, .f2 .cpyImm), (0xC1, .f2 .cmpIndX), (0xC4, .f2 .cpyZp), (0xC5, .f2 .cmpZp),
  (0xC6, .f2 .decZp), (0xC8, .f1 .iny), (0xC9, .f2 .cmpImm), (0xCA, .f1 .dex),
  (0xCC, .f3 .cpyAbs), (0xCD, .f3 .cmpAbs), (0xCE, .f3 .decAbs),
  (0xD0, .f2 .bne), (0xD1, .f2 .cmpIndY), (0xD5, .f2 .cmpZpX), (0xD6, .f2 .decZpX),
  (0xD8, .f1 .cld), (0xD9, .f3 .cmpAbsY), (0xDD, .f3 .cmpAbsX), (0xDE, .f3 .decAbsX),
  (0xE0, .f2 .cpxImm), (0xE1, .f2 .sbcIndX), (0xE4, .f2 .cpxZp), (0xE5, .f2 .sbcZp),
  (0xE6, .f2 .incZp), (0xE8, .f1 .inx), (0xE9, .f2 .sbcImm), (0xEC, .f3 .cpxAbs),
  (0xED, .f3 .sbcAbs), (0xEE, .f3 .incAbs),
  (0xF0, .f2 .beq), (0xF1, .f2 .sbcIndY), (0xF5, .f2 .sbcZpX), (0xF6, .f2 .incZpX),
  (0xF8, .f1 .sed), (0xF9, .f3 .sbcAbsY), (0xFD, .f3 .sbcAbsX), (0xFE, .f3 .incAbsX)]

/-- The opcode map of R85: the 150 recognised opcodes. -/
def opcodeMap : List (Byte × Format) := opcodeRows0 ++ opcodeRows1 ++ opcodeRows2 ++ opcodeRows3

/-- The cell of the map for a byte, if it has one. -/
def mapCell (op : Byte) : Option Format := (opcodeMap.find? fun cell => cell.1 == op).map Prod.snd

/-- `op` is in IMPL_SET: in the map and not left out of it (R88). -/
def Config.implements (cfg : Config) (op : Byte) : Bool := (mapCell op).isSome && !cfg.implExcluded.contains op

/-! ## The decoder (40_dispatch_addressing.md R103, R104) -/

/-- Why a byte list holds no whole instruction. -/
inductive DecodeError where
  /-- There is no opcode byte. -/
  | noOpcode
  /-- The operand bytes of the opcode `op` are not all there. -/
  | missingOperand (op : Byte)
deriving DecidableEq, Repr

/-- The operand bytes of a format, taken off a list: the instruction and the bytes after it. -/
def Format.take (op : Byte) : Format → List Byte → Except DecodeError (Instr × List Byte)
  | .f1 i, rest => .ok (i, rest)
  | .f2 i, b1 :: rest => .ok (i b1, rest)
  | .f3 i, b1 :: b2 :: rest => .ok (i (wordOf b2 b1), rest)
  | .f2 _, _ => .error (.missingOperand op)
  | .f3 _, _ => .error (.missingOperand op)

/-- R103: the cell of an opcode in IMPL_SET, else the undefined one-byte form (R87, R88). -/
def formatOf (cfg : Config) (op : Byte) : Format :=
  if cfg.implements op then (mapCell op).getD (.f1 (.undefined op)) else .f1 (.undefined op)

/-- The instruction at the head of a byte list, and the bytes after it. -/
def decode (cfg : Config) : List Byte → Except DecodeError (Instr × List Byte)
  | [] => .error .noOpcode
  | op :: rest => (formatOf cfg op).take op rest

/-! ## The encoder (30_encoding.md R86, R81) -/

/-- Format F3: the opcode, then the low and the high byte of the word. -/
def encodeWord (op : Byte) (w : Word) : List Byte := [op, lowByte w, highByte w]

/-- The bytes of an instruction. -/
def encode : Instr → List Byte
  | .ldaImm v => [0xA9, v]
  | .ldaZp zp => [0xA5, zp]
  | .ldaZpX zp => [0xB5, zp]
  | .ldaAbs addr => encodeWord 0xAD addr
  | .ldaAbsX addr => encodeWord 0xBD addr
  | .ldaAbsY addr => encodeWord 0xB9 addr
  | .ldaIndX zp => [0xA1, zp]
  | .ldaIndY zp => [0xB1, zp]
  | .ldxImm v => [0xA2, v]
  | .ldxZp zp => [0xA6, zp]
  | .ldxZpY zp => [0xB6, zp]
  | .ldxAbs addr => encodeWord 0xAE addr
  | .ldxAbsY addr => encodeWord 0xBE addr
  | .ldyImm v => [0xA0, v]
  | .ldyZp zp => [0xA4, zp]
  | .ldyZpX zp => [0xB4, zp]
  | .ldyAbs addr => encodeWord 0xAC addr
  | .ldyAbsX addr => encodeWord 0xBC addr
  | .staZp zp => [0x85, zp]
  | .staZpX zp => [0x95, zp]
  | .staAbs addr => encodeWord 0x8D addr
  | .staAbsX addr => encodeWord 0x9D addr
  | .staAbsY addr => encodeWord 0x99 addr
  | .staIndX zp => [0x81, zp]
  | .staIndY zp => [0x91, zp]
  | .stxZp zp => [0x86, zp]
  | .stxZpY zp => [0x96, zp]
  | .stxAbs addr => encodeWord 0x8E addr
  | .styZp zp => [0x84, zp]
  | .styZpX zp => [0x94, zp]
  | .styAbs addr => encodeWord 0x8C addr
  | .oraImm v => [0x09, v]
  | .oraZp zp => [0x05, zp]
  | .oraZpX zp => [0x15, zp]
  | .oraAbs addr => encodeWord 0x0D addr
  | .oraAbsX addr => encodeWord 0x1D addr
  | .oraAbsY addr => encodeWord 0x19 addr
  | .oraIndX zp => [0x01, zp]
  | .oraIndY zp => [0x11, zp]
  | .andImm v => [0x29, v]
  | .andZp zp => [0x25, zp]
  | .andZpX zp => [0x35, zp]
  | .andAbs addr => encodeWord 0x2D addr
  | .andAbsX addr => encodeWord 0x3D addr
  | .andAbsY addr => encodeWord 0x39 addr
  | .andIndX zp => [0x21, zp]
  | .andIndY zp => [0x31, zp]
  | .eorImm v => [0x49, v]
  | .eorZp zp => [0x45, zp]
  | .eorZpX zp => [0x55, zp]
  | .eorAbs addr => encodeWord 0x4D addr
  | .eorAbsX addr => encodeWord 0x5D addr
  | .eorAbsY addr => encodeWord 0x59 addr
  | .eorIndX zp => [0x41, zp]
  | .eorIndY zp => [0x51, zp]
  | .adcImm v => [0x69, v]
  | .adcZp zp => [0x65, zp]
  | .adcZpX zp => [0x75, zp]
  | .adcAbs addr => encodeWord 0x6D addr
  | .adcAbsX addr => encodeWord 0x7D addr
  | .adcAbsY addr => encodeWord 0x79 addr
  | .adcIndX zp => [0x61, zp]
  | .adcIndY zp => [0x71, zp]
  | .sbcImm v => [0xE9, v]
  | .sbcZp zp => [0xE5, zp]
  | .sbcZpX zp => [0xF5, zp]
  | .sbcAbs addr => encodeWord 0xED addr
  | .sbcAbsX addr => encodeWord 0xFD addr
  | .sbcAbsY addr => encodeWord 0xF9 addr
  | .sbcIndX zp => [0xE1, zp]
  | .sbcIndY zp => [0xF1, zp]
  | .aslAcc => [0x0A]
  | .aslZp zp => [0x06, zp]
  | .aslZpX zp => [0x16, zp]
  | .aslAbs addr => encodeWord 0x0E addr
  | .aslAbsX addr => encodeWord 0x1E addr
  | .lsrAcc => [0x4A]
  | .lsrZp zp => [0x46, zp]
  | .lsrZpX zp => [0x56, zp]
  | .lsrAbs addr => encodeWord 0x4E addr
  | .lsrAbsX addr => encodeWord 0x5E addr
  | .rolAcc => [0x2A]
  | .rolZp zp => [0x26, zp]
  | .rolZpX zp => [0x36, zp]
  | .rolAbs addr => encodeWord 0x2E addr
  | .rolAbsX addr => encodeWord 0x3E addr
  | .rorAcc => [0x6A]
  | .rorZp zp => [0x66, zp]
  | .rorZpX zp => [0x76, zp]
  | .rorAbs addr => encodeWord 0x6E addr
  | .rorAbsX addr => encodeWord 0x7E addr
  | .incZp zp => [0xE6, zp]
  | .incZpX zp => [0xF6, zp]
  | .incAbs addr => encodeWord 0xEE addr
  | .incAbsX addr => encodeWord 0xFE addr
  | .decZp zp => [0xC6, zp]
  | .decZpX zp => [0xD6, zp]
  | .decAbs addr => encodeWord 0xCE addr
  | .decAbsX addr => encodeWord 0xDE addr
  | .inx => [0xE8]
  | .iny => [0xC8]
  | .dex => [0xCA]
  | .dey => [0x88]
  | .tax => [0xAA]
  | .txa => [0x8A]
  | .tay => [0xA8]
  | .tya => [0x98]
  | .tsx => [0xBA]
  | .txs => [0x9A]
  | .pha => [0x48]
  | .pla => [0x68]
  | .php => [0x08]
  | .plp => [0x28]
  | .clc => [0x18]
  | .sec => [0x38]
  | .cli => [0x58]
  | .sei => [0x78]
  | .cld => [0xD8]
  | .sed => [0xF8]
  | .clv => [0xB8]
  | .brk => [0x00]
  | .bpl rel => [0x10, rel]
  | .bmi rel => [0x30, rel]
  | .bvc rel => [0x50, rel]
  | .bvs rel => [0x70, rel]
  | .bcc rel => [0x90, rel]
  | .bcs rel => [0xB0, rel]
  | .bne rel => [0xD0, rel]
  | .beq rel => [0xF0, rel]
  | .jmpAbs addr => encodeWord 0x4C addr
  | .jmpInd addr => encodeWord 0x6C addr
  | .jsr addr => encodeWord 0x20 addr
  | .rts => [0x60]
  | .rti => [0x40]
  | .cmpImm v => [0xC9, v]
  | .cmpZp zp => [0xC5, zp]
  | .cmpZpX zp => [0xD5, zp]
  | .cmpAbs addr => encodeWord 0xCD addr
  | .cmpAbsX addr => encodeWord 0xDD addr
  | .cmpAbsY addr => encodeWord 0xD9 addr
  | .cmpIndX zp => [0xC1, zp]
  | .cmpIndY zp => [0xD1, zp]
  | .cpxImm v => [0xE0, v]
  | .cpxZp zp => [0xE4, zp]
  | .cpxAbs addr => encodeWord 0xEC addr
  | .cpyImm v => [0xC0, v]
  | .cpyZp zp => [0xC4, zp]
  | .cpyAbs addr => encodeWord 0xCC addr
  | .bitZp zp => [0x24, zp]
  | .bitAbs addr => encodeWord 0x2C addr
  | .undefined op => [op]

/-- The opcode byte of an instruction. -/
def Instr.opcode (i : Instr) : Byte := (encode i).headD 0

/-- The reported length of an instruction, in bytes (30_encoding.md R82). -/
def Instr.length (i : Instr) : Nat := (encode i).length

/-! ## Words numbered as the opcode table numbers them -/

/-- The bytes of the longest instruction (three, `maxLen`) whose bits are the low `nbits` bits of `w` and zero
above: byte `k` holds bits `8k+7..8k`, the first byte first. -/
def tableBytes (nbits w : Nat) : List Byte :=
  (List.range maxLen).map fun k => BitVec.ofNat 8 ((w % 2 ^ nbits) / 2 ^ (8 * k))

/-- The instruction the decoder reads from a table word, with every opcode of the map implemented. -/
def decodeTableWord (nbits w : Nat) : Option Instr :=
  match decode Config.default (tableBytes nbits w) with
  | .ok (i, _) => some i
  | .error _ => none

end Sys2Proof
end

