-- ==== Sys2Proof/Machine/State.lean ====
section
/-! DEFINITION. The state of the simple6502 CORE (10_state.md), the two faults of 60_exceptions.md R301, the
refusals, and the state after reset. -/

namespace Sys2Proof.Machine

/-- The faults of 60_exceptions.md R301, which are the spec's own; also what the FAULT latch holds. -/
inductive Fault where
  /-- Raised by the fetch of any opcode when `PC >= L` or `PC + len > L`; `pc` is PC (R102). Safe: the source leaves
  the case undefined and the model stops. -/
  | fetchOutOfRange (pc : Word)
  /-- Raised by a data access at `addr >= memSize` under `OOR_POLICY = Fault` (20_memory.md R51). Safe: the source
  leaves the case undefined and the model stops. -/
  | addressOutOfRange (addr : Word)
deriving DecidableEq, Repr

/-- Why a step has no meaning. -/
inductive Refusal where
  /-- Raised by an arm of `exec` whose instruction has no meaning yet (none is left). Safe. -/
  | notModelled (mnemonic : String)
  /-- Raised by a step on a state that has not been reset (10_state.md R34). Safe: the spec refuses the run. -/
  | notReset
  /-- Raised by a step after the run has ended Normal, when the host calls no step any more
  (70_reset_and_hazards.md R337; log 5). Safe: the model stops where the run does. -/
  | runEnded
deriving DecidableEq, Repr

/-- The seven discrete flags (10_state.md R28). -/
structure Flags where
  n : Bool
  v : Bool
  b : Bool
  d : Bool
  i : Bool
  z : Bool
  c : Bool
deriving DecidableEq, Repr

/-- Every flag 0. -/
def Flags.clear : Flags := ⟨false, false, false, false, false, false, false⟩

/-- MEM (10_state.md R31) as the cells that differ from what an unlisted address reads as, by rising address. -/
abbrev Memory := List Host.Cell

/-- What an address with no cell reads as: the reset value of every byte (10_state.md R31, R33). -/
def Memory.unlisted : Byte := 0x00

/-- Where the host's run stands; the model's own (log 5). -/
inductive Phase where
  /-- Reset has not run yet (10_state.md R34). -/
  | preReset
  /-- The host loop is going (70_reset_and_hazards.md R336), or a fault has ended it, as `State.fault` says. -/
  | running
  /-- The run has ended Normal (70_reset_and_hazards.md R337). -/
  | ended
deriving DecidableEq, Repr

/-- The CPU state of 10_state.md R20 and its FAULT latch, the arguments the caller gives every step (the stream and
the parameters), and the phase of the host's run. -/
structure State where
  /-- `A` (R22) -/
  a : Byte
  /-- `X` (R23) -/
  x : Byte
  /-- `Y` (R24) -/
  y : Byte
  /-- `N V B D I Z C` (R28) -/
  flags : Flags
  /-- `SP` (R26) -/
  sp : Word
  /-- `PC` (R27) -/
  pc : Word
  /-- `MEM` (R31) -/
  mem : Memory
  /-- `FAULT` (R32) -/
  fault : Option Fault
  /-- `STREAM`; `L` is its length (00_scope.md R9, R11) -/
  stream : List Byte
  /-- the launch parameters (00_scope.md R9) -/
  cfg : Config
  /-- the model's own (log 5) -/
  phase : Phase
deriving DecidableEq, Repr

/-- The machine right after Reset (10_state.md R33, 70_reset_and_hazards.md R330), with the default parameters and
no program: the stream is the host's to supply (R333; log 7). -/
def State.reset : State where
  a := 0x00
  x := 0x00
  y := 0x00
  flags := Flags.clear
  sp := spReset
  pc := 0x0000
  mem := []
  fault := none
  stream := []
  cfg := Config.default
  phase := .running

end Sys2Proof.Machine
end

