-- ==== Sys2Proof/Machine/Ops.lean ====
section
/-! DEFINITION. The named operations over memory, registers, the stack and the FAULT latch, which every meaning is
written over. -/

namespace Sys2Proof.Machine

/-- The three outcomes of an instruction or a step of this machine. -/
abbrev Result := Host.Outcome State Fault Refusal

/-! ## Memory cells -/

/-- The byte at index `k`. -/
def Memory.read (m : Memory) (k : Nat) : Byte :=
  match m.find? fun cell => cell.1 == k with
  | some cell => cell.2
  | none => Memory.unlisted

/-- The memory without a cell at `k`. -/
def Memory.erase (m : Memory) (k : Nat) : Memory := m.filter fun cell => cell.1 != k

/-- A cell put in its place by address. -/
def Memory.insert (k : Nat) (v : Byte) : Memory → Memory
  | [] => [(k, v)]
  | cell :: rest => if k < cell.1 then (k, v) :: cell :: rest else cell :: Memory.insert k v rest

/-- The memory with byte `v` at index `k`; the value an unlisted address reads as leaves no cell. -/
def Memory.write (m : Memory) (k : Nat) (v : Byte) : Memory :=
  if v = Memory.unlisted then m.erase k else Memory.insert k v (m.erase k)

/-- The canonical form: addresses strictly rising and inside MEM, no cell equal to what an unlisted address reads
as. Equal memories are then equal lists. -/
abbrev Memory.wf (m : Memory) : Prop :=
  m.Pairwise (fun p q => p.1 < q.1) ∧ ∀ cell ∈ m, cell.1 < memSize ∧ cell.2 ≠ Memory.unlisted

/-! ## One write for each piece of state -/

def State.setA (s : State) (v : Byte) : State := { s with a := v }
def State.setX (s : State) (v : Byte) : State := { s with x := v }
def State.setY (s : State) (v : Byte) : State := { s with y := v }
def State.setFlags (s : State) (f : Flags) : State := { s with flags := f }
def State.setSp (s : State) (w : Word) : State := { s with sp := w }
def State.setPc (s : State) (w : Word) : State := { s with pc := w }
def State.setMem (s : State) (m : Memory) : State := { s with mem := m }
def State.setFault (s : State) (f : Option Fault) : State := { s with fault := f }
def State.setStream (s : State) (bs : List Byte) : State := { s with stream := bs }
def State.setPhase (s : State) (p : Phase) : State := { s with phase := p }

/-! ## Data memory (20_memory.md R51) -/

/-- `Translate`: the index in MEM of a 16-bit address, by OOR_POLICY. -/
def translateAddress (cfg : Config) (a : Word) : Except Fault Nat :=
  if a.toNat < memSize then .ok a.toNat
  else match cfg.oorPolicy with
    | .fault => .error (.addressOutOfRange a)
    | .mask13 => .ok (a.toNat % memSize)

/-- `MemRead(a, 1)`. -/
def State.memRead (s : State) (a : Word) : Except Fault Byte := (translateAddress s.cfg a).map s.mem.read

/-- `MemWrite(a, 1, v)`. -/
def State.memWrite (s : State) (a : Word) (v : Byte) : Except Fault State :=
  (translateAddress s.cfg a).map fun k => s.setMem (s.mem.write k v)

/-! ## Taking a fault (60_exceptions.md R302)
There is no return beside it: the core has no trap return, and RTI is inert (R304). -/

/-- Fault entry: FAULT takes the record and nothing else changes; PC still names the instruction. -/
def takeFault (f : Fault) (s : State) : Result := .next (s.setFault (some f))

/-- An instruction is all or nothing (00_scope.md R12): its state if no access faulted, else fault entry from the
state before it. -/
def commit (s : State) : Except Fault State → Result
  | .ok t => .next t
  | .error f => takeFault f s

/-! ## The stack (44_transfer_stack_flag.md section 2, 10_state.md R26) -/

/-- Push: write at SP, then SP goes down modulo 2^16. -/
def State.push (s : State) (v : Byte) : Except Fault State :=
  (s.memWrite s.sp v).map fun t => t.setSp (s.sp - 1)

/-- Pull: SP goes up modulo 2^16, then the byte at SP is read. -/
def State.pull (s : State) : Except Fault (Byte × State) :=
  (s.memRead (s.sp + 1)).map fun v => (v, s.setSp (s.sp + 1))

/-! ## Reset and launch (70_reset_and_hazards.md R330, R333) -/

/-- `Reset()`: every piece of CPU state at its reset value and FAULT cleared; the stream and the parameters are the
caller's. -/
def State.resetCore (s : State) : State := { State.reset with stream := s.stream, cfg := s.cfg }

/-- The launch state of R334: the stream and the parameters supplied, Reset run, MEM_INIT written. -/
def State.launch (cfg : Config) (stream : List Byte) : State :=
  { State.reset with stream := stream, cfg := cfg, mem := cfg.memInit }

end Sys2Proof.Machine
end

