-- ==== Sys2Proof/Machine/Inert.lean ====
section
/-! DEFINITION. Inert control-flow, compare and BIT instructions (45_inert.md R240 to R264) and the undefined opcodes (40_dispatch_addressing.md R104): the shared operation of each
mnemonic, and one meaning for each row of the opcode table. -/

namespace Sys2Proof.Machine

/-- The common rule of the inert instructions (R240): `skip`. -/
def inert (s : State) : Result := .next s

/-- BRK (R241). -/
def execBrk (s : State) : Result := inert s

/-- BPL $rr (R242). -/
def execBpl (_rel : Byte) (s : State) : Result := inert s

/-- BMI $rr (R243). -/
def execBmi (_rel : Byte) (s : State) : Result := inert s

/-- BVC $rr (R244). -/
def execBvc (_rel : Byte) (s : State) : Result := inert s

/-- BVS $rr (R245). -/
def execBvs (_rel : Byte) (s : State) : Result := inert s

/-- BCC $rr (R246). -/
def execBcc (_rel : Byte) (s : State) : Result := inert s

/-- BCS $rr (R247). -/
def execBcs (_rel : Byte) (s : State) : Result := inert s

/-- BNE $rr (R248). -/
def execBne (_rel : Byte) (s : State) : Result := inert s

/-- BEQ $rr (R249). -/
def execBeq (_rel : Byte) (s : State) : Result := inert s

/-- JMP $hhll (R251). -/
def execJmpAbs (_addr : Word) (s : State) : Result := inert s

/-- JMP ($hhll) (R251). -/
def execJmpInd (_addr : Word) (s : State) : Result := inert s

/-- JSR $hhll (R252). -/
def execJsr (_addr : Word) (s : State) : Result := inert s

/-- RTS (R253). -/
def execRts (s : State) : Result := inert s

/-- RTI (R254). -/
def execRti (s : State) : Result := inert s

/-- CMP #$nn (R261). -/
def execCmpImm (_v : Byte) (s : State) : Result := inert s

/-- CMP $nn (R261). -/
def execCmpZp (_zp : Byte) (s : State) : Result := inert s

/-- CMP $nn,X (R261). -/
def execCmpZpX (_zp : Byte) (s : State) : Result := inert s

/-- CMP $hhll (R261). -/
def execCmpAbs (_addr : Word) (s : State) : Result := inert s

/-- CMP $hhll,X (R261). -/
def execCmpAbsX (_addr : Word) (s : State) : Result := inert s

/-- CMP $hhll,Y (R261). -/
def execCmpAbsY (_addr : Word) (s : State) : Result := inert s

/-- CMP ($nn,X) (R261). -/
def execCmpIndX (_zp : Byte) (s : State) : Result := inert s

/-- CMP ($nn),Y (R261). -/
def execCmpIndY (_zp : Byte) (s : State) : Result := inert s

/-- CPX #$nn (R262). -/
def execCpxImm (_v : Byte) (s : State) : Result := inert s

/-- CPX $nn (R262). -/
def execCpxZp (_zp : Byte) (s : State) : Result := inert s

/-- CPX $hhll (R262). -/
def execCpxAbs (_addr : Word) (s : State) : Result := inert s

/-- CPY #$nn (R263). -/
def execCpyImm (_v : Byte) (s : State) : Result := inert s

/-- CPY $nn (R263). -/
def execCpyZp (_zp : Byte) (s : State) : Result := inert s

/-- CPY $hhll (R263). -/
def execCpyAbs (_addr : Word) (s : State) : Result := inert s

/-- BIT $nn (R264). -/
def execBitZp (_zp : Byte) (s : State) : Result := inert s

/-- BIT $hhll (R264). -/
def execBitAbs (_addr : Word) (s : State) : Result := inert s

/-- Any byte outside IMPL_SET (40_dispatch_addressing.md R104): no read, no write. -/
def execUndefined (_op : Byte) (s : State) : Result := inert s

end Sys2Proof.Machine
end

