-- ==== Sys2Proof/Machine/Flags.lean ====
section
/-! DEFINITION. The flag rules of 40_dispatch_addressing.md (R120, R121) and the packed status byte of 10_state.md
R29. -/

namespace Sys2Proof.Machine

/-- `SetNZ` (R120), on the 8-bit truncation of the result. -/
def Flags.setNZ (f : Flags) (t : Byte) : Flags := { f with n := t.getLsbD 7, z := decide (t = 0) }

/-- `SetArith` (R121): `r` is the exact integer, `op1` is A and `op2` the operand. C is the signed-range test. -/
def Flags.setArith (f : Flags) (r : Int) (op1 op2 : Byte) : Flags :=
  let t : Byte := BitVec.ofInt 8 r
  { f.setNZ t with
    v := op1.getLsbD 7 == op2.getLsbD 7 && t.getLsbD 7 != op1.getLsbD 7
    c := decide (r < -128) || decide (127 < r) }

/-- `Pack` (R29): N V 0 B D I Z C, high to low. -/
def Flags.pack (f : Flags) : Byte :=
  BitVec.ofBool f.n ++ BitVec.ofBool f.v ++ 0#1 ++ BitVec.ofBool f.b ++ BitVec.ofBool f.d ++ BitVec.ofBool f.i
    ++ BitVec.ofBool f.z ++ BitVec.ofBool f.c

/-- `Unpack` (R29): bit 6 goes to N and bit 7 to V; bit 5 is ignored. -/
def Flags.unpack (p : Byte) : Flags where
  n := p.getLsbD 6
  v := p.getLsbD 7
  b := p.getLsbD 4
  d := p.getLsbD 3
  i := p.getLsbD 2
  z := p.getLsbD 1
  c := p.getLsbD 0

end Sys2Proof.Machine
end

