-- ==== Sys2Proof/Machine/Operands.lean ====
section
/-! DEFINITION. The addressing modes and the operand helpers of 40_dispatch_addressing.md (R106 to R119). -/

namespace Sys2Proof.Machine

/-- The modes that resolve to an effective address. -/
inductive MemMode where
  | zp (b : Byte)
  | zpX (b : Byte)
  | zpY (b : Byte)
  | abs (w : Word)
  | absX (w : Word)
  | absY (w : Word)
  | indX (b : Byte)
  | indY (b : Byte)
deriving DecidableEq, Repr

/-- An operand that is read: immediate (R107) or in memory. -/
inductive Source where
  | imm (v : Byte)
  | mem (m : MemMode)
deriving DecidableEq, Repr

/-- An operand that is read and written: the accumulator (R115) or in memory. -/
inductive Target where
  | acc
  | mem (m : MemMode)
deriving DecidableEq, Repr

/-- `PtrNext` (R112), by PTR_WRAP. -/
def ptrNext (cfg : Config) (p : Byte) : Word := if cfg.ptrWrap then zext16 (p + 1) else zext16 p + 1

/-- The low and the high byte of the pointer at zero-page address `p`, read low byte first (R113, R114). -/
def State.pointer (s : State) (p : Byte) : Except Fault (Byte × Byte) :=
  (s.memRead (zext16 p)).bind fun lo => (s.memRead (ptrNext s.cfg p)).map fun hi => (lo, hi)

/-- The address of `(zp),Y` (R114): the index is added to the low byte, and its carry to the high byte, which wraps
at 256. -/
def indexPointer (lo hi y : Byte) : Word :=
  wordOf (BitVec.ofNat 8 (hi.toNat + (lo.toNat + y.toNat) / 256)) (BitVec.ofNat 8 (lo.toNat + y.toNat))

/-- `EA(m)` (R108 to R114). -/
def State.ea (s : State) : MemMode → Except Fault Word
  | .zp b => .ok (zext16 b)
  | .zpX b => .ok (zext16 b + zext16 s.x)
  | .zpY b => .ok (zext16 b + zext16 s.y)
  | .abs w => .ok w
  | .absX w => .ok (w + zext16 s.x)
  | .absY w => .ok (w + zext16 s.y)
  | .indX b => (s.pointer (b + s.x)).map fun p => wordOf p.2 p.1
  | .indY b => (s.pointer b).map fun p => indexPointer p.1 p.2 s.y

/-- `Read(m)` (R119). -/
def State.readSource (s : State) : Source → Except Fault Byte
  | .imm v => .ok v
  | .mem m => (s.ea m).bind s.memRead

/-- `RMW(m, f)` (R119) and the flags the instruction computes from the old and the new value; one effective address
serves the read and the write, and the read comes first (R123). -/
def State.rmw (s : State) (t : Target) (f : Byte → Byte) (flags : Byte → Byte → Flags) : Except Fault State :=
  match t with
  | .acc => .ok ((s.setA (f s.a)).setFlags (flags s.a (f s.a)))
  | .mem m => (s.ea m).bind fun a => (s.memRead a).bind fun v =>
      (s.memWrite a (f v)).map fun t => t.setFlags (flags v (f v))

end Sys2Proof.Machine
end

