-- ==== Sys2Proof/Machine/LoadStore.lean ====
section
/-! DEFINITION. Load and store instructions (41_load_store.md R140 to R145): the shared operation of each
mnemonic, and one meaning for each row of the opcode table. -/

namespace Sys2Proof.Machine

/-- Load: the resolved value goes into one register and sets N and Z. -/
def load (set : State → Byte → State) (src : Source) (s : State) : Result :=
  commit s ((s.readSource src).map fun v => (set s v).setFlags (s.flags.setNZ v))

/-- Store: one register's value goes to the resolved address; no flag effect. -/
def store (v : Byte) (m : MemMode) (s : State) : Result :=
  commit s ((s.ea m).bind fun a => s.memWrite a v)

/-- LDA (R140). -/
def lda (src : Source) (s : State) : Result := load State.setA src s

/-- LDA #$nn (R140). -/
def execLdaImm (v : Byte) (s : State) : Result := lda (.imm v) s

/-- LDA $nn (R140). -/
def execLdaZp (zp : Byte) (s : State) : Result := lda (.mem (.zp zp)) s

/-- LDA $nn,X (R140). -/
def execLdaZpX (zp : Byte) (s : State) : Result := lda (.mem (.zpX zp)) s

/-- LDA $hhll (R140). -/
def execLdaAbs (addr : Word) (s : State) : Result := lda (.mem (.abs addr)) s

/-- LDA $hhll,X (R140). -/
def execLdaAbsX (addr : Word) (s : State) : Result := lda (.mem (.absX addr)) s

/-- LDA $hhll,Y (R140). -/
def execLdaAbsY (addr : Word) (s : State) : Result := lda (.mem (.absY addr)) s

/-- LDA ($nn,X) (R140). -/
def execLdaIndX (zp : Byte) (s : State) : Result := lda (.mem (.indX zp)) s

/-- LDA ($nn),Y (R140). -/
def execLdaIndY (zp : Byte) (s : State) : Result := lda (.mem (.indY zp)) s

/-- LDX (R141). -/
def ldx (src : Source) (s : State) : Result := load State.setX src s

/-- LDX #$nn (R141). -/
def execLdxImm (v : Byte) (s : State) : Result := ldx (.imm v) s

/-- LDX $nn (R141). -/
def execLdxZp (zp : Byte) (s : State) : Result := ldx (.mem (.zp zp)) s

/-- LDX $nn,Y (R141). -/
def execLdxZpY (zp : Byte) (s : State) : Result := ldx (.mem (.zpY zp)) s

/-- LDX $hhll (R141). -/
def execLdxAbs (addr : Word) (s : State) : Result := ldx (.mem (.abs addr)) s

/-- LDX $hhll,Y (R141). -/
def execLdxAbsY (addr : Word) (s : State) : Result := ldx (.mem (.absY addr)) s

/-- LDY (R142). -/
def ldy (src : Source) (s : State) : Result := load State.setY src s

/-- LDY #$nn (R142). -/
def execLdyImm (v : Byte) (s : State) : Result := ldy (.imm v) s

/-- LDY $nn (R142). -/
def execLdyZp (zp : Byte) (s : State) : Result := ldy (.mem (.zp zp)) s

/-- LDY $nn,X (R142). -/
def execLdyZpX (zp : Byte) (s : State) : Result := ldy (.mem (.zpX zp)) s

/-- LDY $hhll (R142). -/
def execLdyAbs (addr : Word) (s : State) : Result := ldy (.mem (.abs addr)) s

/-- LDY $hhll,X (R142). -/
def execLdyAbsX (addr : Word) (s : State) : Result := ldy (.mem (.absX addr)) s

/-- STA (R143). -/
def sta (m : MemMode) (s : State) : Result := store s.a m s

/-- STA $nn (R143). -/
def execStaZp (zp : Byte) (s : State) : Result := sta (.zp zp) s

/-- STA $nn,X (R143). -/
def execStaZpX (zp : Byte) (s : State) : Result := sta (.zpX zp) s

/-- STA $hhll (R143). -/
def execStaAbs (addr : Word) (s : State) : Result := sta (.abs addr) s

/-- STA $hhll,X (R143). -/
def execStaAbsX (addr : Word) (s : State) : Result := sta (.absX addr) s

/-- STA $hhll,Y (R143). -/
def execStaAbsY (addr : Word) (s : State) : Result := sta (.absY addr) s

/-- STA ($nn,X) (R143). -/
def execStaIndX (zp : Byte) (s : State) : Result := sta (.indX zp) s

/-- STA ($nn),Y (R143). -/
def execStaIndY (zp : Byte) (s : State) : Result := sta (.indY zp) s

/-- STX (R144). -/
def stx (m : MemMode) (s : State) : Result := store s.x m s

/-- STX $nn (R144). -/
def execStxZp (zp : Byte) (s : State) : Result := stx (.zp zp) s

/-- STX $nn,Y (R144). -/
def execStxZpY (zp : Byte) (s : State) : Result := stx (.zpY zp) s

/-- STX $hhll (R144). -/
def execStxAbs (addr : Word) (s : State) : Result := stx (.abs addr) s

/-- STY (R145). -/
def sty (m : MemMode) (s : State) : Result := store s.y m s

/-- STY $nn (R145). -/
def execStyZp (zp : Byte) (s : State) : Result := sty (.zp zp) s

/-- STY $nn,X (R145). -/
def execStyZpX (zp : Byte) (s : State) : Result := sty (.zpX zp) s

/-- STY $hhll (R145). -/
def execStyAbs (addr : Word) (s : State) : Result := sty (.abs addr) s

end Sys2Proof.Machine
end

