-- ==== Sys2Proof/Machine/LogicArith.lean ====
section
/-! DEFINITION. Logical and arithmetic instructions (42_logic_arith.md R160 to R165): the shared operation of each
mnemonic, and one meaning for each row of the opcode table. -/

namespace Sys2Proof.Machine

/-- Logical: A and the operand are combined, the result goes to A and sets N and Z. -/
def logical (f : Byte → Byte → Byte) (src : Source) (s : State) : Result :=
  commit s ((s.readSource src).map fun m => (s.setA (f s.a m)).setFlags (s.flags.setNZ (f s.a m)))

/-- Arithmetic: the exact integer `r` of A and the operand sets N, Z, V, C (40_dispatch_addressing.md R121) and goes
to A modulo 256; the old C and D are not read. -/
def arithmetic (f : Int → Int → Int) (src : Source) (s : State) : Result :=
  commit s ((s.readSource src).map fun m =>
    (s.setA (BitVec.ofInt 8 (f s.a.toNat m.toNat))).setFlags (s.flags.setArith (f s.a.toNat m.toNat) s.a m))

/-- ORA (R160). -/
def ora (src : Source) (s : State) : Result := logical (· ||| ·) src s

/-- ORA #$nn (R160). -/
def execOraImm (v : Byte) (s : State) : Result := ora (.imm v) s

/-- ORA $nn (R160). -/
def execOraZp (zp : Byte) (s : State) : Result := ora (.mem (.zp zp)) s

/-- ORA $nn,X (R160). -/
def execOraZpX (zp : Byte) (s : State) : Result := ora (.mem (.zpX zp)) s

/-- ORA $hhll (R160). -/
def execOraAbs (addr : Word) (s : State) : Result := ora (.mem (.abs addr)) s

/-- ORA $hhll,X (R160). -/
def execOraAbsX (addr : Word) (s : State) : Result := ora (.mem (.absX addr)) s

/-- ORA $hhll,Y (R160). -/
def execOraAbsY (addr : Word) (s : State) : Result := ora (.mem (.absY addr)) s

/-- ORA ($nn,X) (R160). -/
def execOraIndX (zp : Byte) (s : State) : Result := ora (.mem (.indX zp)) s

/-- ORA ($nn),Y (R160). -/
def execOraIndY (zp : Byte) (s : State) : Result := ora (.mem (.indY zp)) s

/-- AND (R161). -/
def andA (src : Source) (s : State) : Result := logical (· &&& ·) src s

/-- AND #$nn (R161). -/
def execAndImm (v : Byte) (s : State) : Result := andA (.imm v) s

/-- AND $nn (R161). -/
def execAndZp (zp : Byte) (s : State) : Result := andA (.mem (.zp zp)) s

/-- AND $nn,X (R161). -/
def execAndZpX (zp : Byte) (s : State) : Result := andA (.mem (.zpX zp)) s

/-- AND $hhll (R161). -/
def execAndAbs (addr : Word) (s : State) : Result := andA (.mem (.abs addr)) s

/-- AND $hhll,X (R161). -/
def execAndAbsX (addr : Word) (s : State) : Result := andA (.mem (.absX addr)) s

/-- AND $hhll,Y (R161). -/
def execAndAbsY (addr : Word) (s : State) : Result := andA (.mem (.absY addr)) s

/-- AND ($nn,X) (R161). -/
def execAndIndX (zp : Byte) (s : State) : Result := andA (.mem (.indX zp)) s

/-- AND ($nn),Y (R161). -/
def execAndIndY (zp : Byte) (s : State) : Result := andA (.mem (.indY zp)) s

/-- EOR (R162). -/
def eor (src : Source) (s : State) : Result := logical (· ^^^ ·) src s

/-- EOR #$nn (R162). -/
def execEorImm (v : Byte) (s : State) : Result := eor (.imm v) s

/-- EOR $nn (R162). -/
def execEorZp (zp : Byte) (s : State) : Result := eor (.mem (.zp zp)) s

/-- EOR $nn,X (R162). -/
def execEorZpX (zp : Byte) (s : State) : Result := eor (.mem (.zpX zp)) s

/-- EOR $hhll (R162). -/
def execEorAbs (addr : Word) (s : State) : Result := eor (.mem (.abs addr)) s

/-- EOR $hhll,X (R162). -/
def execEorAbsX (addr : Word) (s : State) : Result := eor (.mem (.absX addr)) s

/-- EOR $hhll,Y (R162). -/
def execEorAbsY (addr : Word) (s : State) : Result := eor (.mem (.absY addr)) s

/-- EOR ($nn,X) (R162). -/
def execEorIndX (zp : Byte) (s : State) : Result := eor (.mem (.indX zp)) s

/-- EOR ($nn),Y (R162). -/
def execEorIndY (zp : Byte) (s : State) : Result := eor (.mem (.indY zp)) s

/-- ADC (R163): `r = A + M`. -/
def adc (src : Source) (s : State) : Result := arithmetic (· + ·) src s

/-- ADC #$nn (R163). -/
def execAdcImm (v : Byte) (s : State) : Result := adc (.imm v) s

/-- ADC $nn (R163). -/
def execAdcZp (zp : Byte) (s : State) : Result := adc (.mem (.zp zp)) s

/-- ADC $nn,X (R163). -/
def execAdcZpX (zp : Byte) (s : State) : Result := adc (.mem (.zpX zp)) s

/-- ADC $hhll (R163). -/
def execAdcAbs (addr : Word) (s : State) : Result := adc (.mem (.abs addr)) s

/-- ADC $hhll,X (R163). -/
def execAdcAbsX (addr : Word) (s : State) : Result := adc (.mem (.absX addr)) s

/-- ADC $hhll,Y (R163). -/
def execAdcAbsY (addr : Word) (s : State) : Result := adc (.mem (.absY addr)) s

/-- ADC ($nn,X) (R163). -/
def execAdcIndX (zp : Byte) (s : State) : Result := adc (.mem (.indX zp)) s

/-- ADC ($nn),Y (R163). -/
def execAdcIndY (zp : Byte) (s : State) : Result := adc (.mem (.indY zp)) s

/-- SBC (R164): `r = A - M`. -/
def sbc (src : Source) (s : State) : Result := arithmetic (· - ·) src s

/-- SBC #$nn (R164). -/
def execSbcImm (v : Byte) (s : State) : Result := sbc (.imm v) s

/-- SBC $nn (R164). -/
def execSbcZp (zp : Byte) (s : State) : Result := sbc (.mem (.zp zp)) s

/-- SBC $nn,X (R164). -/
def execSbcZpX (zp : Byte) (s : State) : Result := sbc (.mem (.zpX zp)) s

/-- SBC $hhll (R164). -/
def execSbcAbs (addr : Word) (s : State) : Result := sbc (.mem (.abs addr)) s

/-- SBC $hhll,X (R164). -/
def execSbcAbsX (addr : Word) (s : State) : Result := sbc (.mem (.absX addr)) s

/-- SBC $hhll,Y (R164). -/
def execSbcAbsY (addr : Word) (s : State) : Result := sbc (.mem (.absY addr)) s

/-- SBC ($nn,X) (R164). -/
def execSbcIndX (zp : Byte) (s : State) : Result := sbc (.mem (.indX zp)) s

/-- SBC ($nn),Y (R164). -/
def execSbcIndY (zp : Byte) (s : State) : Result := sbc (.mem (.indY zp)) s

end Sys2Proof.Machine
end

