-- ==== Sys2Proof/Machine/ShiftIncDec.lean ====
section
/-! DEFINITION. Shift, rotate, increment and decrement instructions (43_shift_incdec.md R180 to R189): the shared operation of each
mnemonic, and one meaning for each row of the opcode table. -/

namespace Sys2Proof.Machine

/-- Shift or rotate: C takes the bit `out` shifts out of the old value, the shifted value is written back and sets N
and Z. -/
def shift (f : Byte → Byte) (out : Byte → Bool) (t : Target) (s : State) : Result :=
  commit s (s.rmw t f fun v r => { s.flags with c := out v }.setNZ r)

/-- The carry as a byte, 0 or 1. -/
def carryByte (f : Flags) : Byte := (BitVec.ofBool f.c).zeroExtend 8

/-- Increment or decrement of a register: the new value is written and sets N and Z. -/
def stepReg (set : State → Byte → State) (v : Byte) (s : State) : Result :=
  .next ((set s v).setFlags (s.flags.setNZ v))

/-- ASL (R180). -/
def asl (t : Target) (s : State) : Result := shift (· <<< 1) (·.getLsbD 7) t s

/-- ASL A (R180). -/
def execAslAcc (s : State) : Result := asl .acc s

/-- ASL $nn (R180). -/
def execAslZp (zp : Byte) (s : State) : Result := asl (.mem (.zp zp)) s

/-- ASL $nn,X (R180). -/
def execAslZpX (zp : Byte) (s : State) : Result := asl (.mem (.zpX zp)) s

/-- ASL $hhll (R180). -/
def execAslAbs (addr : Word) (s : State) : Result := asl (.mem (.abs addr)) s

/-- ASL $hhll,X (R180). -/
def execAslAbsX (addr : Word) (s : State) : Result := asl (.mem (.absX addr)) s

/-- LSR (R181), with its explicit clear of N. -/
def lsr (t : Target) (s : State) : Result :=
  commit s (s.rmw t (· >>> 1) fun v r => { { s.flags with c := v.getLsbD 0 }.setNZ r with n := false })

/-- LSR A (R181). -/
def execLsrAcc (s : State) : Result := lsr .acc s

/-- LSR $nn (R181). -/
def execLsrZp (zp : Byte) (s : State) : Result := lsr (.mem (.zp zp)) s

/-- LSR $nn,X (R181). -/
def execLsrZpX (zp : Byte) (s : State) : Result := lsr (.mem (.zpX zp)) s

/-- LSR $hhll (R181). -/
def execLsrAbs (addr : Word) (s : State) : Result := lsr (.mem (.abs addr)) s

/-- LSR $hhll,X (R181). -/
def execLsrAbsX (addr : Word) (s : State) : Result := lsr (.mem (.absX addr)) s

/-- ROL (R182): the carry before the instruction enters at bit 0. -/
def rol (t : Target) (s : State) : Result := shift (fun v => v <<< 1 ||| carryByte s.flags) (·.getLsbD 7) t s

/-- ROL A (R182). -/
def execRolAcc (s : State) : Result := rol .acc s

/-- ROL $nn (R182). -/
def execRolZp (zp : Byte) (s : State) : Result := rol (.mem (.zp zp)) s

/-- ROL $nn,X (R182). -/
def execRolZpX (zp : Byte) (s : State) : Result := rol (.mem (.zpX zp)) s

/-- ROL $hhll (R182). -/
def execRolAbs (addr : Word) (s : State) : Result := rol (.mem (.abs addr)) s

/-- ROL $hhll,X (R182). -/
def execRolAbsX (addr : Word) (s : State) : Result := rol (.mem (.absX addr)) s

/-- ROR (R183): the carry before the instruction enters at bit 7. -/
def ror (t : Target) (s : State) : Result := shift (fun v => v >>> 1 ||| carryByte s.flags <<< 7) (·.getLsbD 0) t s

/-- ROR A (R183). -/
def execRorAcc (s : State) : Result := ror .acc s

/-- ROR $nn (R183). -/
def execRorZp (zp : Byte) (s : State) : Result := ror (.mem (.zp zp)) s

/-- ROR $nn,X (R183). -/
def execRorZpX (zp : Byte) (s : State) : Result := ror (.mem (.zpX zp)) s

/-- ROR $hhll (R183). -/
def execRorAbs (addr : Word) (s : State) : Result := ror (.mem (.abs addr)) s

/-- ROR $hhll,X (R183). -/
def execRorAbsX (addr : Word) (s : State) : Result := ror (.mem (.absX addr)) s

/-- INC (R184). -/
def inc (m : MemMode) (s : State) : Result := commit s (s.rmw (.mem m) (· + 1) fun _ r => s.flags.setNZ r)

/-- INC $nn (R184). -/
def execIncZp (zp : Byte) (s : State) : Result := inc (.zp zp) s

/-- INC $nn,X (R184). -/
def execIncZpX (zp : Byte) (s : State) : Result := inc (.zpX zp) s

/-- INC $hhll (R184). -/
def execIncAbs (addr : Word) (s : State) : Result := inc (.abs addr) s

/-- INC $hhll,X (R184). -/
def execIncAbsX (addr : Word) (s : State) : Result := inc (.absX addr) s

/-- DEC (R185). -/
def dec (m : MemMode) (s : State) : Result := commit s (s.rmw (.mem m) (· - 1) fun _ r => s.flags.setNZ r)

/-- DEC $nn (R185). -/
def execDecZp (zp : Byte) (s : State) : Result := dec (.zp zp) s

/-- DEC $nn,X (R185). -/
def execDecZpX (zp : Byte) (s : State) : Result := dec (.zpX zp) s

/-- DEC $hhll (R185). -/
def execDecAbs (addr : Word) (s : State) : Result := dec (.abs addr) s

/-- DEC $hhll,X (R185). -/
def execDecAbsX (addr : Word) (s : State) : Result := dec (.absX addr) s

/-- INX (R186). -/
def execInx (s : State) : Result := stepReg State.setX (s.x + 1) s

/-- INY (R187). -/
def execIny (s : State) : Result := stepReg State.setY (s.y + 1) s

/-- DEX (R188). -/
def execDex (s : State) : Result := stepReg State.setX (s.x - 1) s

/-- DEY (R189). -/
def execDey (s : State) : Result := stepReg State.setY (s.y - 1) s

end Sys2Proof.Machine
end

