-- ==== Sys2Proof/Machine/TransferStackFlag.lean ====
section
/-! DEFINITION. Transfer, stack and flag instructions (44_transfer_stack_flag.md R200 to R226): the shared operation of each
mnemonic, and one meaning for each row of the opcode table. -/

namespace Sys2Proof.Machine

/-- Transfer between A and an index register: the destination takes the value and sets N and Z. -/
def transfer (set : State → Byte → State) (v : Byte) (s : State) : Result :=
  .next ((set s v).setFlags (s.flags.setNZ v))

/-- TAX (R200). -/
def execTax (s : State) : Result := transfer State.setX s.a s

/-- TXA (R201). -/
def execTxa (s : State) : Result := transfer State.setA s.x s

/-- TAY (R202). -/
def execTay (s : State) : Result := transfer State.setY s.a s

/-- TYA (R203). -/
def execTya (s : State) : Result := transfer State.setA s.y s

/-- TSX (R204): the low byte of SP; no flag. -/
def execTsx (s : State) : Result := .next (s.setX (lowByte s.sp))

/-- TXS (R205), by TXS_MODE; no flag. -/
def execTxs (s : State) : Result :=
  match s.cfg.txsMode with
  | .zext => .next (s.setSp (s.x.zeroExtend 16))
  | .page1 => .next (s.setSp (0x0100 ||| s.x.zeroExtend 16))

/-- PHA (R210). -/
def execPha (s : State) : Result := commit s (s.push s.a)

/-- PLA (R211); N and Z only under PLA_SETS_NZ. -/
def execPla (s : State) : Result :=
  commit s (s.pull.map fun p =>
    (p.2.setA p.1).setFlags (if s.cfg.plaSetsNZ then s.flags.setNZ p.1 else s.flags))

/-- PHP (R212). -/
def execPhp (s : State) : Result := commit s (s.push s.flags.pack)

/-- PLP (R213): all seven flags, N and V exchanged against `pack`. -/
def execPlp (s : State) : Result := commit s (s.pull.map fun p => p.2.setFlags (Flags.unpack p.1))

/-- A flag instruction: exactly one flag is written. -/
def flagOp (f : Flags) (s : State) : Result := .next (s.setFlags f)

/-- CLC (R220). -/
def execClc (s : State) : Result := flagOp { s.flags with c := false } s

/-- SEC (R221). -/
def execSec (s : State) : Result := flagOp { s.flags with c := true } s

/-- CLI (R222). -/
def execCli (s : State) : Result := flagOp { s.flags with i := false } s

/-- SEI (R223). -/
def execSei (s : State) : Result := flagOp { s.flags with i := true } s

/-- CLD (R224). -/
def execCld (s : State) : Result := flagOp { s.flags with d := false } s

/-- SED (R225). -/
def execSed (s : State) : Result := flagOp { s.flags with d := true } s

/-- CLV (R226). -/
def execClv (s : State) : Result := flagOp { s.flags with v := false } s

end Sys2Proof.Machine
end

