-- ==== Sys2Proof/Machine/HostLoop.lean ====
section
/-! DEFINITION. Fetch (40_dispatch_addressing.md R100, R102) and the host loop around the core's step
(70_reset_and_hazards.md R336). -/

namespace Sys2Proof.Machine

/-- The instruction at PC. The whole of it must lie in the stream; the indices are integers and do not wrap
(R101). -/
def State.fetch (s : State) : Except Fault Instr :=
  match decode s.cfg (s.stream.drop s.pc.toNat) with
  | .ok (i, _) => .ok i
  | .error _ => .error (.fetchOutOfRange s.pc)

/-- What the loop does before it executes: stop or go on without an instruction, or run one. -/
inductive Plan where
  | halt (o : Result)
  | run (i : Instr)

/-- A state before reset is refused whatever it holds, FAULT included (10_state.md R34); a faulted core takes no step
(60_exceptions.md R303); an ended run takes no step (R337); an empty stream ends the run Normal before the first step (R336); else the
instruction at PC runs, or its fetch faults. -/
def State.plan (s : State) : Plan :=
  match s.phase, s.fault with
  | .preReset, _ => .halt (.refused .notReset)
  | .running, some f => .halt (.fault f)
  | .ended, some f => .halt (.fault f)
  | .ended, none => .halt (.refused .runEnded)
  | .running, none =>
    if s.stream.isEmpty then .halt (.next (s.setPhase .ended))
    else match s.fetch with
      | .ok i => .run i
      | .error f => .halt (takeFault f s)

/-- The host's advance of PC by the reported length: the integer sum is compared with L and stored modulo 2^16
(R336). -/
def State.advance (s : State) (len : Nat) : State :=
  (s.setPc (BitVec.ofNat 16 (s.pc.toNat + len))).setPhase
    (if s.stream.length ≤ s.pc.toNat + len then .ended else .running)

/-- What the host does with the outcome of an instruction: it advances PC unless the instruction faulted. -/
def finish (len : Nat) : Result → Result
  | .next t => if t.fault.isSome then .next t else .next (t.advance len)
  | .fault f => .fault f
  | .refused r => .refused r

/-- The bytes `bs` laid in the stream at PC, with zeros up to PC where the stream is shorter and the bytes after them
kept, and the run under way; no index above `maxStream` exists, so bytes beyond it are dropped. -/
def State.placeAtPc (s : State) (bs : List Byte) : State :=
  let k := s.pc.toNat
  let before := (s.stream ++ List.replicate k 0).take k
  ((s.setStream ((before ++ bs ++ s.stream.drop (k + bs.length)).take maxStream)).setPhase .running).setFault none

end Sys2Proof.Machine
end

