-- ==== Sys2Proof/Machine/Step.lean ====
section
/-! DEFINITION. One iteration of the host loop: the core's step and the host's advance of PC
(70_reset_and_hazards.md R336, 40_dispatch_addressing.md R100). -/

namespace Sys2Proof.Machine

/-- One step of the machine. -/
def step (s : State) : Host.Outcome State Fault Refusal :=
  match s.plan with
  | .halt o => o
  | .run i => finish i.length (exec i s)

/-- `s` with the instruction of a table word placed at PC in the stream (log 7). -/
def State.withFetchWord (s : State) (nbits w : Nat) : State := s.placeAtPc (tableBytes nbits w)

end Sys2Proof.Machine
end

