-- ==== Sys2Proof/Safety.lean ====
section
/-! DEFINITION. What claims call a sound state and a finished run. -/

namespace Sys2Proof.Machine

/-- The FAULT latch holds only what the spec lets raise it (60_exceptions.md R301, R302): a fetch fault names PC, an
address fault names an address outside MEM and needs `OOR_POLICY = Fault`. -/
def State.faultGrounded (s : State) : Prop :=
  match s.fault with
  | none => True
  | some (.fetchOutOfRange pc) => pc = s.pc
  | some (.addressOutOfRange a) => memSize ≤ a.toNat ∧ s.cfg.oorPolicy = .fault

/-- The invariant of a run: memory keeps its canonical form, the stream its bound (00_scope.md R9), a run under way
has PC inside its stream unless the stream is empty (70_reset_and_hazards.md R336), and FAULT is grounded. -/
def State.Inv (s : State) : Prop :=
  s.mem.wf ∧ s.stream.length ≤ maxStream
    ∧ (s.phase = .running → s.stream ≠ [] → s.pc.toNat < s.stream.length) ∧ s.faultGrounded

/-- A finished run: ended Normal or ended Faulted (70_reset_and_hazards.md R337). -/
def State.finished (s : State) : Prop := s.phase = .ended ∨ s.fault.isSome = true

end Sys2Proof.Machine
end

