-- ==== Sys2Proof/WellFormed.lean ====
section
/-! DEFINITION. Well-formed instructions. Operand widths and the modes a mnemonic has are in the types of `Instr`;
what is left is membership in IMPL_SET (30_encoding.md R87, R88). -/

namespace Sys2Proof

/-- `i` is an instruction of the machine with parameters `cfg`: a mapped form whose opcode is in IMPL_SET, or an
undefined byte that is not. -/
def WellFormed (cfg : Config) (i : Instr) : Bool :=
  match i.mnemonic with
  | .undefined => !cfg.implements i.opcode
  | _ => cfg.implements i.opcode

end Sys2Proof
end

