-- ==== Sys2Proof/Certificates/Slice0/Obligations.lean ====
section
/-! DEFINITION. The statements about the simple6502 CORE, for the provers.
They say a value, a flag or an address by Nat and Int arithmetic where the model computes it on bit vectors, a store
by what every byte reads as afterwards, and an encoding by what the decoder makes of written-out bytes. Every
statement about a parameter holds for each of its values. -/

open Sys2Proof Sys2Proof.Machine

namespace Sys2Proof.Claims

/-! ## Words shared by the statements -/

/-- The index of MEM an access at `a` reaches (20_memory.md R51), if it does not fault. -/
def placeOf (s : State) (a : Word) : Option Nat :=
  if a.toNat < 8192 then some a.toNat
  else match s.cfg.oorPolicy with
    | .fault => none
    | .mask13 => some (a.toNat % 8192)

/-- The operand reads as `v` in `s`. -/
def Reads (s : State) (src : Source) (v : Byte) : Prop :=
  match src with
  | .imm b => v = b
  | .mem m => ∃ a k, s.ea m = .ok a ∧ placeOf s a = some k ∧ v = s.mem.read k

/-- `m'` is `m` with byte `v` at index `k` and every other byte as before. -/
def WritesByte (m m' : Memory) (k : Nat) (v : Byte) : Prop := m'.read k = v ∧ ∀ j, j ≠ k → m'.read j = m.read j

/-- The state with the fault record of address `a` latched and nothing else changed (60_exceptions.md R302). That fault
entry is a next state is log 4. -/
def addressFault (s : State) (a : Word) : State := { s with fault := some (.addressOutOfRange a) }

/-- The two operand bytes of a 16-bit word, low byte first (30_encoding.md R81). -/
def bytesOf (w : Word) : List Byte := [BitVec.ofNat 8 w.toNat, BitVec.ofNat 8 (w.toNat / 256)]

/-- The bytes `op :: operands` are the instruction `i`, whatever follows them, when `op` is in IMPL_SET; the list cut
short anywhere after `op` is no instruction; the length is that of the bytes (30_encoding.md R81, R82,
40_dispatch_addressing.md R102). -/
def EncodedAs (i : Instr) (op : Byte) (operands : List Byte) : Prop :=
  i.length = 1 + operands.length ∧ ∀ cfg rest, op ∉ cfg.implExcluded → decode cfg (op :: (operands ++ rest)) = .ok (i, rest)
    ∧ ∀ n, n < operands.length → decode cfg (op :: operands.take n) = .error (.missingOperand op)

/-- A form of an instruction: the instruction, its operand, its opcode and operand bytes. -/
structure Form (α : Type) where
  instr : Instr
  operand : α
  opcode : Byte
  operands : List Byte

/-- The instructions `forms` read one operand `v` and end in `effect s v`, or latch the fault of its address. -/
def ReadRule (effect : State → Byte → State) (forms : Byte → Word → List (Form Source)) : Prop :=
  ∀ b w s, ∀ f ∈ forms b w, EncodedAs f.instr f.opcode f.operands
    ∧ (∀ v, Reads s f.operand v → exec f.instr s = .next (effect s v))
    ∧ ∀ m a, f.operand = .mem m → s.ea m = .ok a → placeOf s a = none → exec f.instr s = .next (addressFault s a)

/-- The instructions `forms` store `value s` at their effective address, change no other byte and nothing else, or
latch the fault of that address. -/
def StoreRule (value : State → Byte) (forms : Byte → Word → List (Form MemMode)) : Prop :=
  ∀ b w s, ∀ f ∈ forms b w, EncodedAs f.instr f.opcode f.operands
    ∧ ∀ a, s.ea f.operand = .ok a →
      (∀ k, placeOf s a = some k →
        ∃ m', exec f.instr s = .next { s with mem := m' } ∧ WritesByte s.mem m' k (value s))
      ∧ (placeOf s a = none → exec f.instr s = .next (addressFault s a))

/-- The instructions `forms` turn the operand `v` into `value s v` in place, set the flags to `flags s v`, and change
nothing else, or latch the fault of the operand's address. -/
def ModifyRule (value : State → Byte → Byte) (flags : State → Byte → Flags)
    (forms : Byte → Word → List (Form Target)) : Prop :=
  ∀ b w s, ∀ f ∈ forms b w, EncodedAs f.instr f.opcode f.operands
    ∧ match f.operand with
      | .acc => exec f.instr s = .next { s with a := value s s.a, flags := flags s s.a }
      | .mem m => ∀ a, s.ea m = .ok a →
        (∀ k, placeOf s a = some k →
          ∃ m', exec f.instr s = .next { s with mem := m', flags := flags s (s.mem.read k) }
            ∧ WritesByte s.mem m' k (value s (s.mem.read k)))
        ∧ (placeOf s a = none → exec f.instr s = .next (addressFault s a))

/-- The instructions `forms` change nothing at all. -/
def InertRule (forms : Byte → Word → List (Form Unit)) : Prop :=
  ∀ b w s, ∀ f ∈ forms b w, EncodedAs f.instr f.opcode f.operands ∧ exec f.instr s = .next s

/-- The one-byte instruction `i` of opcode `op` ends in `effect s` in every state. -/
def AlwaysRule (i : Instr) (op : Byte) (effect : State → State) : Prop :=
  EncodedAs i op [] ∧ ∀ s, exec i s = .next (effect s)

/-- N is bit 7 of `r` and Z tells whether `r` is 0 (40_dispatch_addressing.md R120). -/
def nzOf (f : Flags) (r : Byte) : Flags := { f with n := r.getLsbD 7, z := decide (r = 0) }

/-- The flags of a pulled status byte (10_state.md R29): N from bit 6, V from bit 7, bit 5 ignored. -/
def unpacked (p : Byte) : Flags where
  n := p.getLsbD 6
  v := p.getLsbD 7
  b := p.getLsbD 4
  d := p.getLsbD 3
  i := p.getLsbD 2
  z := p.getLsbD 1
  c := p.getLsbD 0

/-- The byte that holds the flags (10_state.md R29), bit by bit: N V 0 B D I Z C. -/
def packedValue (f : Flags) : Nat :=
  128 * f.n.toNat + 64 * f.v.toNat + 16 * f.b.toNat + 8 * f.d.toNat + 4 * f.i.toNat + 2 * f.z.toNat + f.c.toNat

/-- X as TXS widens it, by TXS_MODE (44_transfer_stack_flag.md R205). -/
def widened (cfg : Config) (x : Byte) : Nat :=
  match cfg.txsMode with
  | .zext => x.toNat
  | .page1 => 256 + x.toNat

/-- The effective address of `m` in `s` is `n`. -/
def AddressIs (s : State) (m : MemMode) (n : Nat) : Prop := ∃ a, s.ea m = .ok a ∧ a.toNat = n

/-- The index a pointer's high byte is read at, for its low byte at `p` (40_dispatch_addressing.md R112). -/
def nextIndex (cfg : Config) (p : Nat) : Nat := if cfg.ptrWrap then (p + 1) % 256 else p + 1

/-- The address an instruction stores at, for those that store to memory: the effective address of the operand, or SP
for the pushes (20_memory.md R50, 44_transfer_stack_flag.md R210, R212). -/
def storeAddress (s : State) : Instr → Option Word
  | .staZp b | .stxZp b | .styZp b | .aslZp b | .lsrZp b | .rolZp b | .rorZp b | .incZp b | .decZp b =>
    (s.ea (.zp b)).toOption
  | .staZpX b | .styZpX b | .aslZpX b | .lsrZpX b | .rolZpX b | .rorZpX b | .incZpX b | .decZpX b =>
    (s.ea (.zpX b)).toOption
  | .stxZpY b => (s.ea (.zpY b)).toOption
  | .staAbs w | .stxAbs w | .styAbs w | .aslAbs w | .lsrAbs w | .rolAbs w | .rorAbs w | .incAbs w | .decAbs w =>
    (s.ea (.abs w)).toOption
  | .staAbsX w | .aslAbsX w | .lsrAbsX w | .rolAbsX w | .rorAbsX w | .incAbsX w | .decAbsX w =>
    (s.ea (.absX w)).toOption
  | .staAbsY w => (s.ea (.absY w)).toOption
  | .staIndX b => (s.ea (.indX b)).toOption
  | .staIndY b => (s.ea (.indY b)).toOption
  | .pha | .php => some s.sp
  | _ => none

/-- A flag after the same instruction in two runs, from `old` and `old'`: the same value in both, or left as it was in
both. -/
def SameOrKept (old old' new new' : Bool) : Prop := new' = new ∨ (new = old ∧ new' = old')

/-- The host loop is under way and no fault is latched. -/
def Runs (s : State) : Prop := s.phase = .running ∧ s.fault = none

/-- The 106 undefined opcode bytes of 30_encoding.md R87. -/
def undefinedBytes : List Byte :=
    [0x02, 0x03, 0x04, 0x07, 0x0B, 0x0C, 0x0F, 0x12, 0x13, 0x14, 0x17, 0x1A, 0x1B, 0x1C, 0x1F, 0x22, 0x23, 0x27,
     0x2B, 0x2F, 0x32, 0x33, 0x34, 0x37, 0x3A, 0x3B, 0x3C, 0x3F, 0x42, 0x43, 0x44, 0x47, 0x4B, 0x4F, 0x52, 0x53,
     0x54, 0x57, 0x5A, 0x5B, 0x5C, 0x5F, 0x62, 0x63, 0x64, 0x67, 0x6B, 0x6F, 0x72, 0x73, 0x74, 0x77, 0x7A, 0x7B,
     0x7C, 0x7F, 0x80, 0x82, 0x83, 0x87, 0x89, 0x8B, 0x8F, 0x92, 0x93, 0x97, 0x9B, 0x9C, 0x9E, 0x9F, 0xA3, 0xA7,
     0xAB, 0xAF, 0xB2, 0xB3, 0xB7, 0xBB, 0xBF, 0xC2, 0xC3, 0xC7, 0xCB, 0xCF, 0xD2, 0xD3, 0xD4, 0xD7, 0xDA, 0xDB,
     0xDC, 0xDF, 0xE2, 0xE3, 0xE7, 0xEA, 0xEB, 0xEF, 0xF2, 0xF3, 0xF4, 0xF7, 0xFA, 0xFB, 0xFC, 0xFF]

end Sys2Proof.Claims

/-- Every well-formed instruction is read back from its bytes, whatever follows them (30_encoding.md R81, R83, R85, R88). -/
def Obligations.DecodeOfEncode : Prop :=
  ∀ cfg i rest, WellFormed cfg i = true → decode cfg (encode i ++ rest) = .ok (i, rest)

/-- What the decoder reads is well-formed and its bytes are the ones read: each byte list has one meaning and no bit is dropped (30_encoding.md R82, 40_dispatch_addressing.md R103). -/
def Obligations.EncodeOfDecode : Prop :=
  ∀ cfg bs i rest, decode cfg bs = .ok (i, rest) → WellFormed cfg i = true ∧ bs = encode i ++ rest

/-- The length of an instruction depends on its first byte alone and is 1, 2 or 3 (30_encoding.md R82, R90). -/
def Obligations.LengthIsSetByOpcode : Prop :=
  ∀ cfg op bs bs' i i' r r', decode cfg (op :: bs) = .ok (i, r) → decode cfg (op :: bs') = .ok (i', r') →
    i.length = i'.length ∧ 1 ≤ i.length ∧ i.length ≤ 3

/-- Words written out from the table of 30_encoding.md R86, one of each family and format. -/
def Obligations.SampleWordsDecode : Prop :=
  decodeTableWord 16 0x05A9 = some (.ldaImm 0x05) ∧ decodeTableWord 24 0x1234BD = some (.ldaAbsX 0x1234)
    ∧ decodeTableWord 16 0x2091 = some (.staIndY 0x20) ∧ decodeTableWord 16 0x5069 = some (.adcImm 0x50)
    ∧ decodeTableWord 8 0x2A = some .rolAcc ∧ decodeTableWord 8 0x28 = some .plp
    ∧ decodeTableWord 24 0x30006C = some (.jmpInd 0x3000) ∧ decodeTableWord 8 0xEA = some (.undefined 0xEA)

/-- 30_encoding.md R87 and 40_dispatch_addressing.md R104: exactly the 106 listed bytes are outside the map, and each is a one-byte no-op. -/
def Obligations.UndefinedBytesAreOneByteNoOps : Prop :=
  (∀ op : Byte, op ∈ Claims.undefinedBytes ↔ Config.default.implements op = false)
    ∧ ∀ cfg op rest, op ∈ Claims.undefinedBytes →
      decode cfg (op :: rest) = .ok (.undefined op, rest) ∧ (Instr.undefined op).length = 1
        ∧ ∀ s, exec (.undefined op) s = .next s

/-- 30_encoding.md R88: an opcode left out of IMPL_SET (the spec's decision D14) is undefined; the default IMPL_SET is all 150 opcodes of the map. -/
def Obligations.ExcludedOpcodesAreUndefined : Prop :=
  (∀ (cfg : Config) op rest, op ∈ cfg.implExcluded →
      decode cfg (op :: rest) = .ok (.undefined op, rest) ∧ ∀ s, exec (.undefined op) s = .next s)
    ∧ (∀ (cfg : Config) (op : Byte), cfg.implements op = true ↔ Config.default.implements op = true ∧ op ∉ cfg.implExcluded)
    ∧ (List.range 256).countP (fun n => Config.default.implements (BitVec.ofNat 8 n)) = 150

/-- 10_state.md R33; the FAULT latch is R32. The stream and the parameters of the reset state are the model's choice (log 7) and are not claimed here. -/
def Obligations.ResetValues : Prop :=
  ∀ s : State,
    let r := s.resetCore
    r.a = 0x00 ∧ r.x = 0x00 ∧ r.y = 0x00
      ∧ r.flags.n = false ∧ r.flags.v = false ∧ r.flags.b = false ∧ r.flags.d = false ∧ r.flags.i = false
      ∧ r.flags.z = false ∧ r.flags.c = false
      ∧ r.sp = 0x01FF ∧ r.pc = 0x0000 ∧ (∀ k, k < 8192 → r.mem.read k = 0x00) ∧ r.fault = none
      ∧ r.stream = s.stream ∧ r.cfg = s.cfg ∧ State.reset = State.reset.resetCore

/-- 70_reset_and_hazards.md R334, which the spec derives from R330 and R333 (decision D23): the launch state is what Reset leaves, with MEM_INIT in MEM. -/
def Obligations.LaunchIsResetWithImage : Prop :=
  ∀ s : State, State.launch s.cfg s.stream = { s.resetCore with mem := s.cfg.memInit }
    ∧ (s.cfg.memInit = [] → ∀ k, (State.launch s.cfg s.stream).mem.read k = 0x00)
    ∧ Config.default.memInit = []

/-- 20_memory.md R51, with the spec's decision D4: Translate, MemRead and MemWrite under both values of OOR_POLICY. -/
def Obligations.TranslateFollowsPolicy : Prop :=
  ∀ s a v,
    (∀ k, Claims.placeOf s a = some k →
      translateAddress s.cfg a = .ok k ∧ s.memRead a = .ok (s.mem.read k)
        ∧ ∃ m', s.memWrite a v = .ok { s with mem := m' } ∧ Claims.WritesByte s.mem m' k v)
      ∧ (Claims.placeOf s a = none →
        translateAddress s.cfg a = .error (.addressOutOfRange a) ∧ s.memRead a = .error (.addressOutOfRange a)
          ∧ s.memWrite a v = .error (.addressOutOfRange a))
      ∧ Config.default.oorPolicy = .fault

/-- 20_memory.md R61: a read gives the latest write to the same index. That MEM is a list in one canonical form, which a write keeps and in which equal memories are equal lists, is the model's choice (log 12). -/
def Obligations.MemoryReadsLatestWrite : Prop :=
  ∀ (m : Memory) k v,
    (m.write k v).read k = v ∧ (∀ j, j ≠ k → (m.write k v).read j = m.read j)
      ∧ (m.wf → k < 8192 → (m.write k v).wf)
      ∧ (m.wf → ∀ m' : Memory, m'.wf → (∀ j, j < 8192 → m.read j = m'.read j) → m = m')

/-- 40_dispatch_addressing.md R108 and R109, with the spec's decision D8: no wrap at 256. -/
def Obligations.ZeroPageAddresses : Prop :=
  ∀ s b, Claims.AddressIs s (.zp b) b.toNat ∧ Claims.AddressIs s (.zpX b) (b.toNat + s.x.toNat)
    ∧ Claims.AddressIs s (.zpY b) (b.toNat + s.y.toNat)

/-- 40_dispatch_addressing.md R110 and R111: little-endian assembly, and a 16-bit wrap of the indexed sum. -/
def Obligations.AbsoluteAddresses : Prop :=
  ∀ s (lo hi : Byte), Claims.AddressIs s (.abs (wordOf hi lo)) (hi.toNat * 256 + lo.toNat)
    ∧ Claims.AddressIs s (.absX (wordOf hi lo)) ((hi.toNat * 256 + lo.toNat + s.x.toNat) % 65536)
    ∧ Claims.AddressIs s (.absY (wordOf hi lo)) ((hi.toNat * 256 + lo.toNat + s.y.toNat) % 65536)

/-- 40_dispatch_addressing.md R112, both values of PTR_WRAP; the default is the spec's decision D6. -/
def Obligations.PointerHighByteAddress : Prop :=
  (∀ cfg p, (ptrNext cfg p).toNat = if cfg.ptrWrap = false then p.toNat + 1 else (p.toNat + 1) % 256)
    ∧ Config.default.ptrWrap = false

/-- 40_dispatch_addressing.md R113; the two pointer reads cannot fault. -/
def Obligations.IndexedIndirectAddress : Prop :=
  ∀ s b, let base := (b.toNat + s.x.toNat) % 256
    Claims.AddressIs s (.indX b)
      ((s.mem.read (Claims.nextIndex s.cfg base)).toNat * 256 + (s.mem.read base).toNat)

/-- 40_dispatch_addressing.md R114, with the spec's decision D7: the low byte's carry goes to the high byte, which wraps. -/
def Obligations.IndirectIndexedAddress : Prop :=
  ∀ s b, let lo := (s.mem.read b.toNat).toNat
    let hi := (s.mem.read (Claims.nextIndex s.cfg b.toNat)).toNat
    Claims.AddressIs s (.indY b) ((hi + (lo + s.y.toNat) / 256) % 256 * 256 + (lo + s.y.toNat) % 256)


/-- The equivalence that 40_dispatch_addressing.md R114 derives under decision D7: the address is the pointer plus Y modulo 2^16. -/
def Obligations.IndirectIndexedIsSixteenBitSum : Prop :=
  ∀ s b, let lo := (s.mem.read b.toNat).toNat
    let hi := (s.mem.read (Claims.nextIndex s.cfg b.toNat)).toNat
    Claims.AddressIs s (.indY b) ((hi * 256 + lo + s.y.toNat) % 65536)

/-- 40_dispatch_addressing.md R120, for every exact integer result. -/
def Obligations.SetNZRule : Prop :=
  ∀ (f : Flags) (r : Int), let g := f.setNZ (BitVec.ofInt 8 r)
    (g.n = true ↔ 128 ≤ r % 256) ∧ (g.z = true ↔ r % 256 = 0) ∧ { g with n := f.n, z := f.z } = f

/-- 40_dispatch_addressing.md R121, with the spec's decisions D9 and D10: the signed-range carry and the overflow rule, for every exact integer. -/
def Obligations.SetArithRule : Prop :=
  ∀ (f : Flags) (r : Int) (op1 op2 : Byte), let g := f.setArith r op1 op2
    let t := r % 256
    (g.n = true ↔ 128 ≤ t) ∧ (g.z = true ↔ t = 0)
      ∧ (g.v = true ↔ (128 ≤ op1.toNat ↔ 128 ≤ op2.toNat) ∧ ¬ (128 ≤ t ↔ 128 ≤ op1.toNat))
      ∧ (g.c = true ↔ r < -128 ∨ 127 < r) ∧ g.b = f.b ∧ g.d = f.d ∧ g.i = f.i

/-- 10_state.md R29: Pack, and Unpack, which exchanges N and V and ignores bit 5 (the spec's decision D26). -/
def Obligations.StatusByteLayout : Prop :=
  (∀ f : Flags, f.pack.toNat = Claims.packedValue f)
    ∧ ∀ p : Byte, Flags.unpack p = Claims.unpacked p

/-- LDA in its 8 modes (41_load_store.md R140): result, flags, frame, address fault and encoding. -/
def Obligations.LdaLoadsAccumulator : Prop :=
  Claims.ReadRule (fun s v => { s with a := v, flags := { s.flags with n := v.getLsbD 7, z := decide (v = 0) } }) fun b w =>
    [⟨.ldaImm b, .imm b, 0xA9, [b]⟩, ⟨.ldaZp b, .mem (.zp b), 0xA5, [b]⟩,
     ⟨.ldaZpX b, .mem (.zpX b), 0xB5, [b]⟩, ⟨.ldaAbs w, .mem (.abs w), 0xAD, Claims.bytesOf w⟩,
     ⟨.ldaAbsX w, .mem (.absX w), 0xBD, Claims.bytesOf w⟩, ⟨.ldaAbsY w, .mem (.absY w), 0xB9, Claims.bytesOf w⟩,
     ⟨.ldaIndX b, .mem (.indX b), 0xA1, [b]⟩, ⟨.ldaIndY b, .mem (.indY b), 0xB1, [b]⟩]

/-- LDX in its 5 modes (41_load_store.md R141): result, flags, frame, address fault and encoding. -/
def Obligations.LdxLoadsX : Prop :=
  Claims.ReadRule (fun s v => { s with x := v, flags := { s.flags with n := v.getLsbD 7, z := decide (v = 0) } }) fun b w =>
    [⟨.ldxImm b, .imm b, 0xA2, [b]⟩, ⟨.ldxZp b, .mem (.zp b), 0xA6, [b]⟩,
     ⟨.ldxZpY b, .mem (.zpY b), 0xB6, [b]⟩, ⟨.ldxAbs w, .mem (.abs w), 0xAE, Claims.bytesOf w⟩,
     ⟨.ldxAbsY w, .mem (.absY w), 0xBE, Claims.bytesOf w⟩]

/-- LDY in its 5 modes (41_load_store.md R142): result, flags, frame, address fault and encoding. -/
def Obligations.LdyLoadsY : Prop :=
  Claims.ReadRule (fun s v => { s with y := v, flags := { s.flags with n := v.getLsbD 7, z := decide (v = 0) } }) fun b w =>
    [⟨.ldyImm b, .imm b, 0xA0, [b]⟩, ⟨.ldyZp b, .mem (.zp b), 0xA4, [b]⟩,
     ⟨.ldyZpX b, .mem (.zpX b), 0xB4, [b]⟩, ⟨.ldyAbs w, .mem (.abs w), 0xAC, Claims.bytesOf w⟩,
     ⟨.ldyAbsX w, .mem (.absX w), 0xBC, Claims.bytesOf w⟩]

/-- STA, STX, STY in their 7, 3 and 3 modes (41_load_store.md R143 to R145): the byte stored, every other byte, the frame, address fault and encoding. -/
def Obligations.StoreInstructions : Prop :=
  Claims.StoreRule (fun s => s.a) (fun b w =>
      [⟨.staZp b, .zp b, 0x85, [b]⟩, ⟨.staZpX b, .zpX b, 0x95, [b]⟩,
       ⟨.staAbs w, .abs w, 0x8D, Claims.bytesOf w⟩, ⟨.staAbsX w, .absX w, 0x9D, Claims.bytesOf w⟩,
       ⟨.staAbsY w, .absY w, 0x99, Claims.bytesOf w⟩, ⟨.staIndX b, .indX b, 0x81, [b]⟩,
       ⟨.staIndY b, .indY b, 0x91, [b]⟩])
    ∧ Claims.StoreRule (fun s => s.x) (fun b w =>
      [⟨.stxZp b, .zp b, 0x86, [b]⟩, ⟨.stxZpY b, .zpY b, 0x96, [b]⟩,
       ⟨.stxAbs w, .abs w, 0x8E, Claims.bytesOf w⟩])
    ∧ Claims.StoreRule (fun s => s.y) (fun b w =>
      [⟨.styZp b, .zp b, 0x84, [b]⟩, ⟨.styZpX b, .zpX b, 0x94, [b]⟩,
       ⟨.styAbs w, .abs w, 0x8C, Claims.bytesOf w⟩])

/-- ORA, AND, EOR in their 8 modes (42_logic_arith.md R160 to R162). -/
def Obligations.LogicalInstructions : Prop :=
  Claims.ReadRule (fun s v => { s with a := s.a ||| v, flags := Claims.nzOf s.flags (s.a ||| v) }) (fun b w =>
      [⟨.oraImm b, .imm b, 0x09, [b]⟩, ⟨.oraZp b, .mem (.zp b), 0x05, [b]⟩,
       ⟨.oraZpX b, .mem (.zpX b), 0x15, [b]⟩, ⟨.oraAbs w, .mem (.abs w), 0x0D, Claims.bytesOf w⟩,
       ⟨.oraAbsX w, .mem (.absX w), 0x1D, Claims.bytesOf w⟩, ⟨.oraAbsY w, .mem (.absY w), 0x19, Claims.bytesOf w⟩,
       ⟨.oraIndX b, .mem (.indX b), 0x01, [b]⟩, ⟨.oraIndY b, .mem (.indY b), 0x11, [b]⟩])
    ∧ Claims.ReadRule (fun s v => { s with a := s.a &&& v, flags := Claims.nzOf s.flags (s.a &&& v) }) (fun b w =>
      [⟨.andImm b, .imm b, 0x29, [b]⟩, ⟨.andZp b, .mem (.zp b), 0x25, [b]⟩,
       ⟨.andZpX b, .mem (.zpX b), 0x35, [b]⟩, ⟨.andAbs w, .mem (.abs w), 0x2D, Claims.bytesOf w⟩,
       ⟨.andAbsX w, .mem (.absX w), 0x3D, Claims.bytesOf w⟩, ⟨.andAbsY w, .mem (.absY w), 0x39, Claims.bytesOf w⟩,
       ⟨.andIndX b, .mem (.indX b), 0x21, [b]⟩, ⟨.andIndY b, .mem (.indY b), 0x31, [b]⟩])
    ∧ Claims.ReadRule (fun s v => { s with a := s.a ^^^ v, flags := Claims.nzOf s.flags (s.a ^^^ v) }) (fun b w =>
      [⟨.eorImm b, .imm b, 0x49, [b]⟩, ⟨.eorZp b, .mem (.zp b), 0x45, [b]⟩,
       ⟨.eorZpX b, .mem (.zpX b), 0x55, [b]⟩, ⟨.eorAbs w, .mem (.abs w), 0x4D, Claims.bytesOf w⟩,
       ⟨.eorAbsX w, .mem (.absX w), 0x5D, Claims.bytesOf w⟩, ⟨.eorAbsY w, .mem (.absY w), 0x59, Claims.bytesOf w⟩,
       ⟨.eorIndX b, .mem (.indX b), 0x41, [b]⟩, ⟨.eorIndY b, .mem (.indY b), 0x51, [b]⟩])

/-- ADC in its 8 modes (42_logic_arith.md R163): the old C and D are not read. -/
def Obligations.AdcAddsWithoutCarryIn : Prop :=
  Claims.ReadRule (fun s v =>
      let r := s.a.toNat + v.toNat
      { s with
        a := BitVec.ofNat 8 r
        flags := { s.flags with
          n := decide (128 ≤ r % 256)
          z := decide (r % 256 = 0)
          v := decide ((128 ≤ s.a.toNat ↔ 128 ≤ v.toNat) ∧ ¬ (128 ≤ r % 256 ↔ 128 ≤ s.a.toNat))
          c := decide (127 < r) } }) fun b w =>
    [⟨.adcImm b, .imm b, 0x69, [b]⟩, ⟨.adcZp b, .mem (.zp b), 0x65, [b]⟩,
     ⟨.adcZpX b, .mem (.zpX b), 0x75, [b]⟩, ⟨.adcAbs w, .mem (.abs w), 0x6D, Claims.bytesOf w⟩,
     ⟨.adcAbsX w, .mem (.absX w), 0x7D, Claims.bytesOf w⟩, ⟨.adcAbsY w, .mem (.absY w), 0x79, Claims.bytesOf w⟩,
     ⟨.adcIndX b, .mem (.indX b), 0x61, [b]⟩, ⟨.adcIndY b, .mem (.indY b), 0x71, [b]⟩]

/-- SBC in its 8 modes (42_logic_arith.md R164): the exact integer A - M, V on M itself (the spec's decisions D9, D10). -/
def Obligations.SbcSubtractsWithoutBorrowIn : Prop :=
  Claims.ReadRule (fun s v =>
      let r : Int := (s.a.toNat : Int) - v.toNat
      { s with
        a := BitVec.ofInt 8 r
        flags := { s.flags with
          n := decide (128 ≤ r % 256)
          z := decide (r % 256 = 0)
          v := decide ((128 ≤ s.a.toNat ↔ 128 ≤ v.toNat) ∧ ¬ (128 ≤ r % 256 ↔ 128 ≤ s.a.toNat))
          c := decide (r < -128 ∨ 127 < r) } }) fun b w =>
    [⟨.sbcImm b, .imm b, 0xE9, [b]⟩, ⟨.sbcZp b, .mem (.zp b), 0xE5, [b]⟩,
     ⟨.sbcZpX b, .mem (.zpX b), 0xF5, [b]⟩, ⟨.sbcAbs w, .mem (.abs w), 0xED, Claims.bytesOf w⟩,
     ⟨.sbcAbsX w, .mem (.absX w), 0xFD, Claims.bytesOf w⟩, ⟨.sbcAbsY w, .mem (.absY w), 0xF9, Claims.bytesOf w⟩,
     ⟨.sbcIndX b, .mem (.indX b), 0xE1, [b]⟩, ⟨.sbcIndY b, .mem (.indY b), 0xF1, [b]⟩]

/-- ASL on A and in its four memory modes (43_shift_incdec.md R180). -/
def Obligations.AslShiftsLeft : Prop :=
  Claims.ModifyRule (fun _ v => BitVec.ofNat 8 (2 * v.toNat))
    (fun s v => { Claims.nzOf s.flags (BitVec.ofNat 8 (2 * v.toNat)) with c := v.getLsbD 7 }) fun b w =>
    [⟨.aslAcc, .acc, 0x0A, []⟩, ⟨.aslZp b, .mem (.zp b), 0x06, [b]⟩,
     ⟨.aslZpX b, .mem (.zpX b), 0x16, [b]⟩, ⟨.aslAbs w, .mem (.abs w), 0x0E, Claims.bytesOf w⟩,
     ⟨.aslAbsX w, .mem (.absX w), 0x1E, Claims.bytesOf w⟩]

/-- LSR on A and in its four memory modes (43_shift_incdec.md R181). -/
def Obligations.LsrShiftsRight : Prop :=
  Claims.ModifyRule (fun _ v => BitVec.ofNat 8 (v.toNat / 2))
    (fun s v => { s.flags with n := false, z := decide (v.toNat / 2 = 0), c := v.getLsbD 0 }) fun b w =>
    [⟨.lsrAcc, .acc, 0x4A, []⟩, ⟨.lsrZp b, .mem (.zp b), 0x46, [b]⟩,
     ⟨.lsrZpX b, .mem (.zpX b), 0x56, [b]⟩, ⟨.lsrAbs w, .mem (.abs w), 0x4E, Claims.bytesOf w⟩,
     ⟨.lsrAbsX w, .mem (.absX w), 0x5E, Claims.bytesOf w⟩]

/-- ROL on A and in its four memory modes (43_shift_incdec.md R182). -/
def Obligations.RolRotatesLeftThroughCarry : Prop :=
  Claims.ModifyRule (fun s v => BitVec.ofNat 8 (2 * v.toNat + s.flags.c.toNat))
    (fun s v => { Claims.nzOf s.flags (BitVec.ofNat 8 (2 * v.toNat + s.flags.c.toNat)) with c := v.getLsbD 7 }) fun b w =>
    [⟨.rolAcc, .acc, 0x2A, []⟩, ⟨.rolZp b, .mem (.zp b), 0x26, [b]⟩,
     ⟨.rolZpX b, .mem (.zpX b), 0x36, [b]⟩, ⟨.rolAbs w, .mem (.abs w), 0x2E, Claims.bytesOf w⟩,
     ⟨.rolAbsX w, .mem (.absX w), 0x3E, Claims.bytesOf w⟩]

/-- ROR on A and in its four memory modes (43_shift_incdec.md R183). -/
def Obligations.RorRotatesRightThroughCarry : Prop :=
  Claims.ModifyRule (fun s v => BitVec.ofNat 8 (v.toNat / 2 + 128 * s.flags.c.toNat))
    (fun s v => { Claims.nzOf s.flags (BitVec.ofNat 8 (v.toNat / 2 + 128 * s.flags.c.toNat)) with c := v.getLsbD 0 }) fun b w =>
    [⟨.rorAcc, .acc, 0x6A, []⟩, ⟨.rorZp b, .mem (.zp b), 0x66, [b]⟩,
     ⟨.rorZpX b, .mem (.zpX b), 0x76, [b]⟩, ⟨.rorAbs w, .mem (.abs w), 0x6E, Claims.bytesOf w⟩,
     ⟨.rorAbsX w, .mem (.absX w), 0x7E, Claims.bytesOf w⟩]

/-- INC in its four memory modes (43_shift_incdec.md R184). -/
def Obligations.IncIncrementsMemory : Prop :=
  Claims.ModifyRule (fun _ v => BitVec.ofNat 8 (v.toNat + 1)) (fun s v => Claims.nzOf s.flags (BitVec.ofNat 8 (v.toNat + 1))) fun b w =>
    [⟨.incZp b, .mem (.zp b), 0xE6, [b]⟩, ⟨.incZpX b, .mem (.zpX b), 0xF6, [b]⟩,
     ⟨.incAbs w, .mem (.abs w), 0xEE, Claims.bytesOf w⟩, ⟨.incAbsX w, .mem (.absX w), 0xFE, Claims.bytesOf w⟩]

/-- DEC in its four memory modes (43_shift_incdec.md R185). -/
def Obligations.DecDecrementsMemory : Prop :=
  Claims.ModifyRule (fun _ v => BitVec.ofNat 8 (v.toNat + 255)) (fun s v => Claims.nzOf s.flags (BitVec.ofNat 8 (v.toNat + 255))) fun b w =>
    [⟨.decZp b, .mem (.zp b), 0xC6, [b]⟩, ⟨.decZpX b, .mem (.zpX b), 0xD6, [b]⟩,
     ⟨.decAbs w, .mem (.abs w), 0xCE, Claims.bytesOf w⟩, ⟨.decAbsX w, .mem (.absX w), 0xDE, Claims.bytesOf w⟩]

/-- INX, INY, DEX, DEY (43_shift_incdec.md R186 to R189). -/
def Obligations.IndexStepInstructions : Prop :=
  Claims.AlwaysRule .inx 0xE8 (fun s => let r := BitVec.ofNat 8 (s.x.toNat + 1); { s with x := r, flags := Claims.nzOf s.flags r })
    ∧ Claims.AlwaysRule .iny 0xC8 (fun s => let r := BitVec.ofNat 8 (s.y.toNat + 1); { s with y := r, flags := Claims.nzOf s.flags r })
    ∧ Claims.AlwaysRule .dex 0xCA (fun s => let r := BitVec.ofNat 8 (s.x.toNat + 255); { s with x := r, flags := Claims.nzOf s.flags r })
    ∧ Claims.AlwaysRule .dey 0x88 (fun s => let r := BitVec.ofNat 8 (s.y.toNat + 255); { s with y := r, flags := Claims.nzOf s.flags r })

/-- TAX, TXA, TAY, TYA (44_transfer_stack_flag.md R200 to R203). -/
def Obligations.TransferInstructions : Prop :=
  Claims.AlwaysRule .tax 0xAA (fun s => { s with x := s.a, flags := Claims.nzOf s.flags s.a })
    ∧ Claims.AlwaysRule .txa 0x8A (fun s => { s with a := s.x, flags := Claims.nzOf s.flags s.x })
    ∧ Claims.AlwaysRule .tay 0xA8 (fun s => { s with y := s.a, flags := Claims.nzOf s.flags s.a })
    ∧ Claims.AlwaysRule .tya 0x98 (fun s => { s with a := s.y, flags := Claims.nzOf s.flags s.y })

/-- TSX and TXS (44_transfer_stack_flag.md R204, R205), both values of TXS_MODE (the spec's decision D12); no flag. -/
def Obligations.StackPointerTransfers : Prop :=
  Claims.AlwaysRule .tsx 0xBA (fun s => { s with x := BitVec.ofNat 8 s.sp.toNat })
    ∧ Claims.AlwaysRule .txs 0x9A (fun s => { s with sp := BitVec.ofNat 16 (Claims.widened s.cfg s.x) })
    ∧ Config.default.txsMode = .zext

/-- PHA (44_transfer_stack_flag.md R210): the write is at SP itself, then SP goes down modulo 2^16 (the spec's decision D13). -/
def Obligations.PhaPushesAccumulator : Prop :=
  Claims.EncodedAs .pha 0x48 [] ∧ ∀ s,
    (∀ k, Claims.placeOf s s.sp = some k →
      ∃ m', exec .pha s = .next { s with mem := m', sp := BitVec.ofNat 16 (s.sp.toNat + 65535) }
        ∧ Claims.WritesByte s.mem m' k (s.a))
      ∧ (Claims.placeOf s s.sp = none → exec .pha s = .next (Claims.addressFault s s.sp))

/-- PHP (44_transfer_stack_flag.md R212): bit 5 is 0 and bit 4 is the stored B. -/
def Obligations.PhpPushesStatus : Prop :=
  Claims.EncodedAs .php 0x08 [] ∧ ∀ s,
    (∀ k, Claims.placeOf s s.sp = some k →
      ∃ m', exec .php s = .next { s with mem := m', sp := BitVec.ofNat 16 (s.sp.toNat + 65535) }
        ∧ Claims.WritesByte s.mem m' k (BitVec.ofNat 8 (Claims.packedValue s.flags)))
      ∧ (Claims.placeOf s s.sp = none → exec .php s = .next (Claims.addressFault s s.sp))

/-- PLA (44_transfer_stack_flag.md R211), both values of PLA_SETS_NZ (the spec's decision D11). -/
def Obligations.PlaPullsAccumulator : Prop :=
  Claims.EncodedAs .pla 0x68 [] ∧ Config.default.plaSetsNZ = false ∧ ∀ s, let a : Word := BitVec.ofNat 16 (s.sp.toNat + 1)
    (∀ k, Claims.placeOf s a = some k → exec .pla s = .next
      (let p := s.mem.read k
       { s with a := p, sp := a, flags := if s.cfg.plaSetsNZ then Claims.nzOf s.flags p else s.flags }))
      ∧ (Claims.placeOf s a = none → exec .pla s = .next (Claims.addressFault s a))

/-- PLP (44_transfer_stack_flag.md R213): all seven flags, N and V exchanged. -/
def Obligations.PlpPullsStatus : Prop :=
  Claims.EncodedAs .plp 0x28 [] ∧ ∀ s, let a : Word := BitVec.ofNat 16 (s.sp.toNat + 1)
    (∀ k, Claims.placeOf s a = some k → exec .plp s = .next
      (let p := s.mem.read k
       { s with sp := a, flags := Claims.unpacked p }))
      ∧ (Claims.placeOf s a = none → exec .plp s = .next (Claims.addressFault s a))

/-- 44_transfer_stack_flag.md R213 and vector S5 of 95_test_vectors.md: PHP then PLP exchanges N and V. -/
def Obligations.PhpThenPlpExchangesSignAndOverflow : Prop :=
  ∀ s, s.sp.toNat < 8192 → ∃ t u, exec .php s = .next t ∧ exec .plp t = .next u
    ∧ u.flags = { s.flags with n := s.flags.v, v := s.flags.n }
    ∧ u = { s with flags := u.flags, mem := u.mem }
    ∧ ∀ j, j ≠ s.sp.toNat → u.mem.read j = s.mem.read j

/-- 44_transfer_stack_flag.md R210, R211: a pull gives back what was pushed. -/
def Obligations.PhaThenPlaRestoresAccumulator : Prop :=
  ∀ s v, s.sp.toNat < 8192 → s.cfg.plaSetsNZ = false → ∃ t u, exec .pha s = .next t
    ∧ exec .pla { t with a := v } = .next u ∧ u = { s with mem := u.mem }

/-- CLC, SEC, CLI, SEI, CLD, SED, CLV (44_transfer_stack_flag.md R220 to R226). -/
def Obligations.FlagInstructions : Prop :=
  Claims.AlwaysRule .clc 0x18 (fun s => { s with flags := { s.flags with c := false } })
    ∧ Claims.AlwaysRule .sec 0x38 (fun s => { s with flags := { s.flags with c := true } })
    ∧ Claims.AlwaysRule .cli 0x58 (fun s => { s with flags := { s.flags with i := false } })
    ∧ Claims.AlwaysRule .sei 0x78 (fun s => { s with flags := { s.flags with i := true } })
    ∧ Claims.AlwaysRule .cld 0xD8 (fun s => { s with flags := { s.flags with d := false } })
    ∧ Claims.AlwaysRule .sed 0xF8 (fun s => { s with flags := { s.flags with d := true } })
    ∧ Claims.AlwaysRule .clv 0xB8 (fun s => { s with flags := { s.flags with v := false } })

/-- BRK and the eight branches (45_inert.md R241 to R249), for every offset byte (R250) and every flag; that BRK is one byte is the spec's decision D27. -/
def Obligations.BreakAndBranchesAreInert : Prop :=
  Claims.InertRule fun b _ =>
    [⟨.brk, (), 0x00, []⟩, ⟨.bpl b, (), 0x10, [b]⟩, ⟨.bmi b, (), 0x30, [b]⟩,
     ⟨.bvc b, (), 0x50, [b]⟩, ⟨.bvs b, (), 0x70, [b]⟩, ⟨.bcc b, (), 0x90, [b]⟩,
     ⟨.bcs b, (), 0xB0, [b]⟩, ⟨.bne b, (), 0xD0, [b]⟩, ⟨.beq b, (), 0xF0, [b]⟩]

/-- JMP in both forms, JSR, RTS, RTI (45_inert.md R251 to R254). -/
def Obligations.JumpsAndReturnsAreInert : Prop :=
  Claims.InertRule fun _ w =>
    [⟨.jmpAbs w, (), 0x4C, Claims.bytesOf w⟩, ⟨.jmpInd w, (), 0x6C, Claims.bytesOf w⟩, ⟨.jsr w, (), 0x20, Claims.bytesOf w⟩,
     ⟨.rts, (), 0x60, []⟩, ⟨.rti, (), 0x40, []⟩]

/-- CMP, CPX, CPY and BIT in all their modes (45_inert.md R260 to R264); that no address is resolved is the spec's decision D16. -/
def Obligations.CompareAndBitAreInert : Prop :=
  Claims.InertRule fun b w =>
    [⟨.cmpImm b, (), 0xC9, [b]⟩, ⟨.cmpZp b, (), 0xC5, [b]⟩, ⟨.cmpZpX b, (), 0xD5, [b]⟩,
     ⟨.cmpAbs w, (), 0xCD, Claims.bytesOf w⟩, ⟨.cmpAbsX w, (), 0xDD, Claims.bytesOf w⟩, ⟨.cmpAbsY w, (), 0xD9, Claims.bytesOf w⟩,
     ⟨.cmpIndX b, (), 0xC1, [b]⟩, ⟨.cmpIndY b, (), 0xD1, [b]⟩, ⟨.cpxImm b, (), 0xE0, [b]⟩,
     ⟨.cpxZp b, (), 0xE4, [b]⟩, ⟨.cpxAbs w, (), 0xEC, Claims.bytesOf w⟩, ⟨.cpyImm b, (), 0xC0, [b]⟩,
     ⟨.cpyZp b, (), 0xC4, [b]⟩, ⟨.cpyAbs w, (), 0xCC, Claims.bytesOf w⟩, ⟨.bitZp b, (), 0x24, [b]⟩,
     ⟨.bitAbs w, (), 0x2C, Claims.bytesOf w⟩]

/-- 00_scope.md R12, 40_dispatch_addressing.md R123, 60_exceptions.md R301 and R302: every instruction ends in a next state; FAULT is as before, or the instruction has changed nothing but FAULT, for an address outside MEM under Fault. -/
def Obligations.EveryInstructionIsAllOrNothing : Prop :=
  ∀ i s, ∃ t, exec i s = .next t ∧ (t.fault = s.fault
    ∨ ∃ a, t = Claims.addressFault s a ∧ 8192 ≤ a.toNat ∧ s.cfg.oorPolicy = .fault)

/-- 60_exceptions.md R301: the forms that can raise an address fault, and no other. -/
def Obligations.OnlyMemoryInstructionsFault : Prop :=
  ∀ i s t, exec i s = .next t → t.fault ≠ s.fault → ∃ b w, i ∈ ([Instr.ldaAbs w, .ldaAbsX w, .ldaAbsY w, .ldaIndX b, .ldaIndY b, .ldxAbs w, .ldxAbsY w, .ldyAbs w, .ldyAbsX w,
      .staAbs w, .staAbsX w, .staAbsY w, .staIndX b, .staIndY b, .stxAbs w, .styAbs w, .oraAbs w, .oraAbsX w,
      .oraAbsY w, .oraIndX b, .oraIndY b, .andAbs w, .andAbsX w, .andAbsY w, .andIndX b, .andIndY b, .eorAbs w,
      .eorAbsX w, .eorAbsY w, .eorIndX b, .eorIndY b, .adcAbs w, .adcAbsX w, .adcAbsY w, .adcIndX b, .adcIndY b,
      .sbcAbs w, .sbcAbsX w, .sbcAbsY w, .sbcIndX b, .sbcIndY b, .aslAbs w, .aslAbsX w, .lsrAbs w, .lsrAbsX w,
      .rolAbs w, .rolAbsX w, .rorAbs w, .rorAbsX w, .incAbs w, .incAbsX w, .decAbs w, .decAbsX w, .pha,
      .php, .pla, .plp] : List Instr)

/-- 40_dispatch_addressing.md R100 and R122, 20_memory.md R53 and R64: no instruction writes PC, the stream, a parameter or the run's phase. -/
def Obligations.NoInstructionWritesPcOrStream : Prop :=
  ∀ i s t, exec i s = .next t → t.pc = s.pc ∧ t.stream = s.stream ∧ t.cfg = s.cfg ∧ t.phase = s.phase

/-- 10_state.md R22, R23, R24, R26: who writes A, X, Y and SP. PLA writes A, TSX writes X, the stack instructions write SP. -/
def Obligations.RegisterWriters : Prop :=
  ∀ i s t, exec i s = .next t →
    (t.a ≠ s.a → i.mnemonic ∈ [Mnemonic.lda, .ora, .and, .eor, .adc, .sbc, .asl, .lsr, .rol, .ror, .txa, .tya, .pla])
      ∧ (t.x ≠ s.x → i.mnemonic ∈ [Mnemonic.ldx, .inx, .dex, .tax, .tsx])
      ∧ (t.y ≠ s.y → i.mnemonic ∈ [Mnemonic.ldy, .iny, .dey, .tay])
      ∧ (t.sp ≠ s.sp → i.mnemonic ∈ [Mnemonic.pha, .php, .pla, .plp, .txs])
      ∧ (i.mnemonic ∈ [Mnemonic.asl, .lsr, .rol, .ror] → i ∉ [Instr.aslAcc, .lsrAcc, .rolAcc, .rorAcc] → t.a = s.a)

/-- 10_state.md R28: the writers of each flag; B is written by PLP alone. -/
def Obligations.FlagWriters : Prop :=
  ∀ i s t, exec i s = .next t →
    (t.flags.n ≠ s.flags.n ∨ t.flags.z ≠ s.flags.z →
      i.mnemonic ∈ [Mnemonic.lda, .ldx, .ldy, .ora, .and, .eor, .adc, .sbc, .asl, .lsr, .rol, .ror, .inc, .dec,
        .inx, .iny, .dex, .dey, .tax, .txa, .tay, .tya, .plp]
        ∨ (i = .pla ∧ s.cfg.plaSetsNZ = true))
      ∧ (t.flags.v ≠ s.flags.v → i.mnemonic ∈ [Mnemonic.adc, .sbc, .clv, .plp]) ∧ (t.flags.b ≠ s.flags.b → i = .plp)
      ∧ (t.flags.d ≠ s.flags.d → i.mnemonic ∈ [Mnemonic.sed, .cld, .plp]) ∧ (t.flags.i ≠ s.flags.i → i.mnemonic ∈ [Mnemonic.sei, .cli, .plp])
      ∧ (t.flags.c ≠ s.flags.c → i.mnemonic ∈ [Mnemonic.adc, .sbc, .asl, .lsr, .rol, .ror, .clc, .sec, .plp])

/-- 20_memory.md R50, 40_dispatch_addressing.md R122: only stores, memory shifts, INC, DEC and the pushes write MEM, each at most the one byte its address translates to. -/
def Obligations.MemoryWriters : Prop :=
  ∀ i s t, exec i s = .next t →
    (∀ a, Claims.storeAddress s i = some a →
        (∀ k, Claims.placeOf s a = some k →
          k < 8192 ∧ ∃ v, t.mem = s.mem.write k v ∧ Claims.WritesByte s.mem t.mem k v)
        ∧ (Claims.placeOf s a = none → t.mem = s.mem))
      ∧ (Claims.storeAddress s i = none → t.mem = s.mem)
      ∧ (i.mnemonic ∉ [Mnemonic.sta, .stx, .sty, .asl, .lsr, .rol, .ror, .inc, .dec, .pha, .php] ∨ i ∈ [Instr.aslAcc, .lsrAcc, .rolAcc, .rorAcc] →
        t.mem = s.mem)
      ∧ (i.mnemonic ∈ [Mnemonic.sta, .stx, .sty, .asl, .lsr, .rol, .ror, .inc, .dec, .pha, .php] ∧ i ∉ [Instr.aslAcc, .lsrAcc, .rolAcc, .rorAcc] →
        ∃ a, Claims.storeAddress s i = some a)

/-- 10_state.md R28: no instruction conditions on a flag but ROL and ROR, which read C; PHP stores the flags. Two runs that differ only in the flags. -/
def Obligations.FlagsDoNotSteerInstructions : Prop :=
  ∀ i s t (f : Flags), exec i s = .next t → i ≠ .php → (i.mnemonic ∈ [Mnemonic.rol, .ror] → f.c = s.flags.c) →
    ∃ t', exec i { s with flags := f } = .next t' ∧ { t' with flags := t.flags } = t
      ∧ Claims.SameOrKept s.flags.n f.n t.flags.n t'.flags.n ∧ Claims.SameOrKept s.flags.v f.v t.flags.v t'.flags.v
      ∧ Claims.SameOrKept s.flags.b f.b t.flags.b t'.flags.b ∧ Claims.SameOrKept s.flags.d f.d t.flags.d t'.flags.d
      ∧ Claims.SameOrKept s.flags.i f.i t.flags.i t'.flags.i ∧ Claims.SameOrKept s.flags.z f.z t.flags.z t'.flags.z
      ∧ Claims.SameOrKept s.flags.c f.c t.flags.c t'.flags.c

/-- 40_dispatch_addressing.md R100 and 70_reset_and_hazards.md R336: the step is the decoded instruction, then the host's advance of PC by its length unless it faulted. That one step is one iteration of that loop is log 3, and the phase is the model's own (log 5). -/
def Obligations.StepRunsDecodedInstruction : Prop :=
  ∀ s i rest, Claims.Runs s → decode s.cfg (s.stream.drop s.pc.toNat) = .ok (i, rest) →
    WellFormed s.cfg i = true ∧ ∃ t, exec i s = .next t
      ∧ (t.fault = none → step s = .next { t with
          pc := BitVec.ofNat 16 (s.pc.toNat + i.length)
          phase := if s.stream.length ≤ s.pc.toNat + i.length then .ended else .running })
      ∧ (t.fault ≠ none → step s = .next t)

/-- 40_dispatch_addressing.md R102, with the spec's decision D3: the whole instruction must lie in the stream; the check covers every opcode and comes before anything executes. Fault entry is a next state with the latch written (log 4). -/
def Obligations.TruncatedInstructionFaults : Prop :=
  ∀ s, Claims.Runs s → s.stream ≠ [] →
    (s.stream.length ≤ s.pc.toNat → step s = .next { s with fault := some (.fetchOutOfRange s.pc) })
      ∧ ∀ op, s.stream[s.pc.toNat]? = some op →
        (s.stream.length < s.pc.toNat + (formatOf s.cfg op).length →
          step s = .next { s with fault := some (.fetchOutOfRange s.pc) })
        ∧ (s.pc.toNat + (formatOf s.cfg op).length ≤ s.stream.length →
          ∃ i rest, decode s.cfg (s.stream.drop s.pc.toNat) = .ok (i, rest) ∧ i.opcode = op
            ∧ i.length = (formatOf s.cfg op).length)

/-- 60_exceptions.md R303, with the spec's decision D5, and 10_state.md R32: a latched fault stops every step of a run, which answers it (log 4), and reset clears it. -/
def Obligations.FaultedCoreTakesNoStep : Prop :=
  ∀ s f, s.phase = .running → s.fault = some f → step s = .fault f ∧ s.resetCore.fault = none

/-- 10_state.md R34, with the spec's decision D18; that a state says whether it has been reset is the model's choice (log 5). -/
def Obligations.StepBeforeResetIsRefused : Prop :=
  ∀ s : State, s.phase = .preReset →
    step s = .refused .notReset ∧ s.resetCore.phase = .running ∧ s.resetCore.fault = none

/-- 70_reset_and_hazards.md R336 and R337, with the model's own phase (log 5, log 6) and order of checks (log 13): an empty stream ends the run without a step, and an ended run takes none. -/
def Obligations.RunEndIsFinal : Prop :=
  ∀ s : State,
    (s.fault = none → s.phase = .running → s.stream = [] → step s = .next { s with phase := .ended })
      ∧ (s.phase = .ended → (s.fault = none → step s = .refused .runEnded)
        ∧ ∀ f, s.fault = some f → step s = .fault f)

/-- The invariant holds after reset and at the launch of every run whose stream keeps its bound and whose image is canonical. The canonical form of MEM and of MEM_INIT is the model's choice (log 12), and so is the phase (log 5); the values are those of 10_state.md R33 and 70_reset_and_hazards.md R334. -/
def Obligations.ResetHoldsInvariant : Prop :=
  State.reset.Inv ∧ ∀ cfg stream, Memory.wf cfg.memInit → stream.length ≤ 65536 → (State.launch cfg stream).Inv

/-- Every step keeps the invariant, from every state that meets it (10_state.md R31, 00_scope.md R9, 60_exceptions.md R301, R302, 70_reset_and_hazards.md R336, R337). The canonical form of MEM is the model's choice (log 12), and so is the phase (log 5). -/
def Obligations.StepKeepsInvariant : Prop :=
  ∀ s t, s.Inv → step s = .next t → t.Inv

/-- 70_reset_and_hazards.md R337: every run ends after at most L steps, Normal or Faulted; a Normal end has PC at L, because 40_dispatch_addressing.md R102 keeps every instruction inside the stream. The one iteration of a run with L = 0 is the model's choice (log 6), and so is the phase that says a run has ended (log 5). -/
def Obligations.EveryRunEnds : Prop :=
  ∀ cfg stream, stream.length ≤ 65536 → ∃ k t, k ≤ max 1 stream.length
    ∧ Host.Core.run Sys2Proof.core k (State.launch cfg stream) = .next t ∧ t.finished
    ∧ (t.fault = none → t.pc = BitVec.ofNat 16 stream.length)
end

