-- ==== Sys2Proof/Laws/Decode.lean ====
section
/-! SUPPORT. Lemmas about byte order, the opcode map, the decoder and the encoder. -/

namespace Sys2Proof

theorem wordOf_toNat (hi lo : Byte) : (wordOf hi lo).toNat = hi.toNat * 256 + lo.toNat := by
  show (hi ++ lo).toNat = _
  rw [BitVec.toNat_append, ← Nat.shiftLeft_add_eq_or_of_lt lo.isLt, Nat.shiftLeft_eq]

@[simp] theorem lowByte_wordOf (hi lo : Byte) : lowByte (wordOf hi lo) = lo := by
  apply BitVec.eq_of_toNat_eq
  have := lo.isLt
  simp [lowByte, wordOf_toNat, BitVec.extractLsb'_toNat]
  omega

@[simp] theorem highByte_wordOf (hi lo : Byte) : highByte (wordOf hi lo) = hi := by
  apply BitVec.eq_of_toNat_eq
  have := hi.isLt
  have := lo.isLt
  simp [highByte, wordOf_toNat, BitVec.extractLsb'_toNat, Nat.shiftRight_eq_div_pow]
  omega

@[simp] theorem wordOf_high_low (w : Word) : wordOf (highByte w) (lowByte w) = w := by
  apply BitVec.eq_of_toNat_eq
  have := w.isLt
  simp [highByte, lowByte, wordOf_toNat, BitVec.extractLsb'_toNat, Nat.shiftRight_eq_div_pow]
  omega

/-- The instruction a cell makes has the cell's opcode as its first byte, whatever its operands, and is no undefined
byte. -/
def cellEncodes (cell : Byte × Format) : Prop :=
  match cell.2 with
  | .f1 i => encode i = [cell.1] ∧ i.mnemonic ≠ .undefined
  | .f2 i => ∀ b, encode (i b) = [cell.1, b] ∧ (i b).mnemonic ≠ .undefined
  | .f3 i => ∀ w, encode (i w) = encodeWord cell.1 w ∧ (i w).mnemonic ≠ .undefined

theorem opcodeRows0_encodes : ∀ cell ∈ opcodeRows0, cellEncodes cell := by
  simp only [opcodeRows0, List.forall_mem_cons]
  repeat' apply And.intro
  all_goals first | rfl | decide | exact fun _ => ⟨rfl, nofun⟩ | simp

theorem opcodeRows1_encodes : ∀ cell ∈ opcodeRows1, cellEncodes cell := by
  simp only [opcodeRows1, List.forall_mem_cons]
  repeat' apply And.intro
  all_goals first | rfl | decide | exact fun _ => ⟨rfl, nofun⟩ | simp

theorem opcodeRows2_encodes : ∀ cell ∈ opcodeRows2, cellEncodes cell := by
  simp only [opcodeRows2, List.forall_mem_cons]
  repeat' apply And.intro
  all_goals first | rfl | decide | exact fun _ => ⟨rfl, nofun⟩ | simp

theorem opcodeRows3_encodes : ∀ cell ∈ opcodeRows3, cellEncodes cell := by
  simp only [opcodeRows3, List.forall_mem_cons]
  repeat' apply And.intro
  all_goals first | rfl | decide | exact fun _ => ⟨rfl, nofun⟩ | simp

theorem opcodeMap_encodes : ∀ cell ∈ opcodeMap, cellEncodes cell := by
  intro cell h
  simp only [opcodeMap, List.mem_append] at h
  rcases h with ((h | h) | h) | h
  · exact opcodeRows0_encodes cell h
  · exact opcodeRows1_encodes cell h
  · exact opcodeRows2_encodes cell h
  · exact opcodeRows3_encodes cell h

theorem mapCell_encodes {op : Byte} {f : Format} (h : mapCell op = some f) : cellEncodes (op, f) := by
  unfold mapCell at h
  cases hf : opcodeMap.find? fun cell => cell.1 == op with
  | none => simp [hf] at h
  | some cell =>
    have hop : cell.1 = op := by simpa using List.find?_some hf
    have hc := opcodeMap_encodes cell (List.mem_of_find?_eq_some hf)
    rw [hf] at h
    obtain rfl : cell.2 = f := by simpa using h
    exact hop ▸ hc

@[simp] theorem decode_nil (cfg : Config) : decode cfg [] = .error .noOpcode := rfl

@[simp] theorem decode_cons (cfg : Config) (op : Byte) (rest : List Byte) :
    decode cfg (op :: rest) = (formatOf cfg op).take op rest := rfl

/-- An opcode outside IMPL_SET is the undefined one-byte form. -/
theorem formatOf_of_not_implements {cfg : Config} {op : Byte} (h : cfg.implements op = false) :
    formatOf cfg op = .f1 (.undefined op) := by simp [formatOf, h]

/-- An opcode in IMPL_SET has its cell of the map. -/
theorem formatOf_of_implements {cfg : Config} {op : Byte} (h : cfg.implements op = true) :
    mapCell op = some (formatOf cfg op) := by
  have hs : (mapCell op).isSome = true := by simp_all [Config.implements]
  obtain ⟨f, hf⟩ := Option.isSome_iff_exists.mp hs
  simp [formatOf, h, hf]

/-- What taking an instruction off a byte list can do. -/
theorem take_ok {op : Byte} {f : Format} {bs rest : List Byte} {i : Instr} (h : f.take op bs = .ok (i, rest)) :
    (f = .f1 i ∧ bs = rest) ∨ (∃ g b, f = .f2 g ∧ i = g b ∧ bs = b :: rest)
      ∨ ∃ g b1 b2, f = .f3 g ∧ i = g (wordOf b2 b1) ∧ bs = b1 :: b2 :: rest := by
  match f, bs with
  | .f1 j, bs => simp_all [Format.take]
  | .f2 g, [] => simp [Format.take] at h
  | .f2 g, b :: bs => simp [Format.take] at h; simp [← h.1, ← h.2]
  | .f3 g, [] => simp [Format.take] at h
  | .f3 g, [_] => simp [Format.take] at h
  | .f3 g, b1 :: b2 :: bs => simp [Format.take] at h; simp [← h.1, ← h.2]

/-- Decoding takes the instruction's length off the list (30_encoding.md R82). -/
theorem decode_length {cfg : Config} {bs rest : List Byte} {i : Instr} (h : decode cfg bs = .ok (i, rest)) :
    bs.length = i.length + rest.length := by
  cases bs with
  | nil => cases h
  | cons op bs =>
    rw [decode_cons] at h
    by_cases hop : cfg.implements op = true
    · have hc := mapCell_encodes (formatOf_of_implements hop)
      rcases take_ok h with ⟨hf, rfl⟩ | ⟨g, b, hf, rfl, rfl⟩ | ⟨g, b1, b2, hf, rfl, rfl⟩ <;>
        simp only [cellEncodes, hf] at hc
      · simp [Instr.length, hc.1, Nat.add_comm]
      · simp [Instr.length, (hc b).1]; omega
      · simp [Instr.length, (hc _).1, encodeWord]; omega
    · rw [formatOf_of_not_implements (by simpa using hop)] at h
      cases h
      simp [Instr.length, encode, Nat.add_comm]

/-- The length of an instruction lies between 1 and `maxLen`. -/
theorem length_pos (i : Instr) : 1 ≤ i.length := by cases i <;> simp [Instr.length, encode, encodeWord]

theorem length_le (i : Instr) : i.length ≤ maxLen := by cases i <;> simp [Instr.length, encode, encodeWord, maxLen]

end Sys2Proof
end

