-- ==== Sys2Proof/Laws/Flags.lean ====
section
/-! SUPPORT. What the flag rules leave alone, and the status byte's round trip. -/

namespace Sys2Proof.Machine.Flags

variable (f : Flags) (t : Byte)

@[simp] theorem setNZ_n : (f.setNZ t).n = t.getLsbD 7 := rfl
@[simp] theorem setNZ_z : (f.setNZ t).z = decide (t = 0) := rfl
@[simp] theorem setNZ_v : (f.setNZ t).v = f.v := rfl
@[simp] theorem setNZ_b : (f.setNZ t).b = f.b := rfl
@[simp] theorem setNZ_d : (f.setNZ t).d = f.d := rfl
@[simp] theorem setNZ_i : (f.setNZ t).i = f.i := rfl
@[simp] theorem setNZ_c : (f.setNZ t).c = f.c := rfl

variable (r : Int) (op1 op2 : Byte)

@[simp] theorem setArith_n : (f.setArith r op1 op2).n = (BitVec.ofInt 8 r).getLsbD 7 := rfl
@[simp] theorem setArith_z : (f.setArith r op1 op2).z = decide (BitVec.ofInt 8 r = 0) := rfl
@[simp] theorem setArith_c : (f.setArith r op1 op2).c = (decide (r < -128) || decide (127 < r)) := rfl
@[simp] theorem setArith_b : (f.setArith r op1 op2).b = f.b := rfl
@[simp] theorem setArith_d : (f.setArith r op1 op2).d = f.d := rfl
@[simp] theorem setArith_i : (f.setArith r op1 op2).i = f.i := rfl

/-- Unpacking a packed byte exchanges N and V and keeps the rest (10_state.md R29). -/
theorem unpack_pack : unpack f.pack = { f with n := f.v, v := f.n } := by
  obtain ⟨n, v, b, d, i, z, c⟩ := f
  cases n <;> cases v <;> cases b <;> cases d <;> cases i <;> cases z <;> cases c <;> rfl

/-- Bit 5 of the packed byte is 0. -/
theorem pack_bit5 : f.pack.getLsbD 5 = false := by
  obtain ⟨n, v, b, d, i, z, c⟩ := f
  cases n <;> cases v <;> cases b <;> cases d <;> cases i <;> cases z <;> cases c <;> rfl

end Sys2Proof.Machine.Flags
end

