-- ==== Sys2Proof/Laws/Memory.lean ====
section
/-! SUPPORT. The laws of memory cells: a read after a write, and the canonical form. -/

namespace Sys2Proof.Machine.Memory

@[simp] theorem read_nil (k : Nat) : Memory.read [] k = unlisted := rfl

theorem read_cons (cell : Host.Cell) (m : Memory) (k : Nat) :
    Memory.read (cell :: m) k = if cell.1 = k then cell.2 else Memory.read m k := by
  by_cases h : cell.1 = k <;> simp [Memory.read, h]

theorem erase_cons (cell : Host.Cell) (m : Memory) (k : Nat) :
    Memory.erase (cell :: m) k = if cell.1 = k then Memory.erase m k else cell :: Memory.erase m k := by
  by_cases h : cell.1 = k <;> simp [Memory.erase, h]

theorem read_erase_same (m : Memory) (k : Nat) : (m.erase k).read k = unlisted := by
  induction m with
  | nil => rfl
  | cons cell m ih => rw [erase_cons]; split <;> simp_all [read_cons]

theorem read_erase_other (m : Memory) {k j : Nat} (h : j ≠ k) : (m.erase k).read j = m.read j := by
  induction m with
  | nil => rfl
  | cons cell m ih =>
    rw [erase_cons]
    split
    · next hk => rw [ih, read_cons, if_neg (by omega)]
    · rw [read_cons, read_cons, ih]

theorem read_insert_other (m : Memory) {k j : Nat} (v : Byte) (h : j ≠ k) : (insert k v m).read j = m.read j := by
  induction m with
  | nil => simp [insert, read_cons, Ne.symm h]
  | cons cell m ih =>
    unfold insert
    split
    · rw [read_cons, if_neg (Ne.symm h)]
    · rw [read_cons, read_cons, ih]

theorem read_insert_erase_same (m : Memory) (k : Nat) (v : Byte) : (insert k v (m.erase k)).read k = v := by
  induction m with
  | nil => simp [erase, insert, read_cons]
  | cons cell m ih =>
    rw [erase_cons]
    split
    · exact ih
    · next hk =>
      unfold insert
      split
      · simp [read_cons]
      · rw [read_cons, if_neg hk, ih]

/-- A read of the byte just written. -/
@[simp] theorem read_write_same (m : Memory) (k : Nat) (v : Byte) : (m.write k v).read k = v := by
  unfold write
  split
  · next h => rw [read_erase_same, h]
  · exact read_insert_erase_same m k v

/-- A write leaves every other byte alone. -/
theorem read_write_other (m : Memory) {k j : Nat} (v : Byte) (h : j ≠ k) : (m.write k v).read j = m.read j := by
  unfold write
  split
  · exact read_erase_other m h
  · rw [read_insert_other _ v h, read_erase_other m h]

theorem mem_insert {k : Nat} {v : Byte} {m : Memory} {cell : Host.Cell} (h : cell ∈ insert k v m) :
    cell = (k, v) ∨ cell ∈ m := by
  induction m with
  | nil => simpa [insert] using h
  | cons c m ih =>
    unfold insert at h
    split at h
    · simpa using h
    · rcases List.mem_cons.mp h with rfl | h
      · simp
      · rcases ih h with h | h <;> simp [h]

theorem erase_wf {m : Memory} (k : Nat) (h : m.wf) : (m.erase k).wf :=
  ⟨h.1.filter _, fun cell hc => h.2 cell (List.mem_of_mem_filter hc)⟩

theorem insert_wf {m : Memory} {k : Nat} {v : Byte} (h : m.wf) (hk : k < memSize) (hv : v ≠ unlisted)
    (hfree : ∀ cell ∈ m, cell.1 ≠ k) : (insert k v m).wf := by
  refine ⟨?_, fun cell hc => ?_⟩
  · have hp := h.1
    clear h
    induction m with
    | nil => simp [insert]
    | cons c m ih =>
      obtain ⟨hc, hm⟩ := List.pairwise_cons.mp hp
      unfold insert
      split
      · next hlt =>
        refine List.pairwise_cons.mpr ⟨fun d hd => ?_, hp⟩
        rcases List.mem_cons.mp hd with rfl | hd
        · exact hlt
        · exact lt_trans hlt (hc d hd)
      · next hge =>
        refine List.pairwise_cons.mpr ⟨fun d hd => ?_, ih (fun e he => hfree e (List.mem_cons_of_mem _ he)) hm⟩
        rcases mem_insert hd with rfl | hd
        · have := hfree c (List.mem_cons_self ..)
          show c.1 < k
          omega
        · exact hc d hd
  · rcases mem_insert hc with rfl | hc
    · exact ⟨hk, hv⟩
    · exact h.2 cell hc

/-- A write inside MEM keeps the canonical form. -/
theorem write_wf {m : Memory} {k : Nat} (v : Byte) (h : m.wf) (hk : k < memSize) : (m.write k v).wf := by
  unfold write
  split
  · exact erase_wf k h
  · next hv => exact insert_wf (erase_wf k h) hk hv fun cell hc => by simpa [erase] using (List.mem_filter.mp hc).2

theorem nil_wf : Memory.wf [] := by decide

end Sys2Proof.Machine.Memory
end

