-- ==== Sys2Proof/Laws/State.lean ====
section
/-! SUPPORT. One lemma for each field under each write of State. -/

namespace Sys2Proof.Machine.State

variable (s : State)

@[simp] theorem setA_a (v : Byte) : (s.setA v).a = v := rfl
@[simp] theorem setA_x (v : Byte) : (s.setA v).x = s.x := rfl
@[simp] theorem setA_y (v : Byte) : (s.setA v).y = s.y := rfl
@[simp] theorem setA_flags (v : Byte) : (s.setA v).flags = s.flags := rfl
@[simp] theorem setA_sp (v : Byte) : (s.setA v).sp = s.sp := rfl
@[simp] theorem setA_pc (v : Byte) : (s.setA v).pc = s.pc := rfl
@[simp] theorem setA_mem (v : Byte) : (s.setA v).mem = s.mem := rfl
@[simp] theorem setA_fault (v : Byte) : (s.setA v).fault = s.fault := rfl
@[simp] theorem setA_stream (v : Byte) : (s.setA v).stream = s.stream := rfl
@[simp] theorem setA_cfg (v : Byte) : (s.setA v).cfg = s.cfg := rfl
@[simp] theorem setA_phase (v : Byte) : (s.setA v).phase = s.phase := rfl

@[simp] theorem setX_a (v : Byte) : (s.setX v).a = s.a := rfl
@[simp] theorem setX_x (v : Byte) : (s.setX v).x = v := rfl
@[simp] theorem setX_y (v : Byte) : (s.setX v).y = s.y := rfl
@[simp] theorem setX_flags (v : Byte) : (s.setX v).flags = s.flags := rfl
@[simp] theorem setX_sp (v : Byte) : (s.setX v).sp = s.sp := rfl
@[simp] theorem setX_pc (v : Byte) : (s.setX v).pc = s.pc := rfl
@[simp] theorem setX_mem (v : Byte) : (s.setX v).mem = s.mem := rfl
@[simp] theorem setX_fault (v : Byte) : (s.setX v).fault = s.fault := rfl
@[simp] theorem setX_stream (v : Byte) : (s.setX v).stream = s.stream := rfl
@[simp] theorem setX_cfg (v : Byte) : (s.setX v).cfg = s.cfg := rfl
@[simp] theorem setX_phase (v : Byte) : (s.setX v).phase = s.phase := rfl

@[simp] theorem setY_a (v : Byte) : (s.setY v).a = s.a := rfl
@[simp] theorem setY_x (v : Byte) : (s.setY v).x = s.x := rfl
@[simp] theorem setY_y (v : Byte) : (s.setY v).y = v := rfl
@[simp] theorem setY_flags (v : Byte) : (s.setY v).flags = s.flags := rfl
@[simp] theorem setY_sp (v : Byte) : (s.setY v).sp = s.sp := rfl
@[simp] theorem setY_pc (v : Byte) : (s.setY v).pc = s.pc := rfl
@[simp] theorem setY_mem (v : Byte) : (s.setY v).mem = s.mem := rfl
@[simp] theorem setY_fault (v : Byte) : (s.setY v).fault = s.fault := rfl
@[simp] theorem setY_stream (v : Byte) : (s.setY v).stream = s.stream := rfl
@[simp] theorem setY_cfg (v : Byte) : (s.setY v).cfg = s.cfg := rfl
@[simp] theorem setY_phase (v : Byte) : (s.setY v).phase = s.phase := rfl

@[simp] theorem setFlags_a (f : Flags) : (s.setFlags f).a = s.a := rfl
@[simp] theorem setFlags_x (f : Flags) : (s.setFlags f).x = s.x := rfl
@[simp] theorem setFlags_y (f : Flags) : (s.setFlags f).y = s.y := rfl
@[simp] theorem setFlags_flags (f : Flags) : (s.setFlags f).flags = f := rfl
@[simp] theorem setFlags_sp (f : Flags) : (s.setFlags f).sp = s.sp := rfl
@[simp] theorem setFlags_pc (f : Flags) : (s.setFlags f).pc = s.pc := rfl
@[simp] theorem setFlags_mem (f : Flags) : (s.setFlags f).mem = s.mem := rfl
@[simp] theorem setFlags_fault (f : Flags) : (s.setFlags f).fault = s.fault := rfl
@[simp] theorem setFlags_stream (f : Flags) : (s.setFlags f).stream = s.stream := rfl
@[simp] theorem setFlags_cfg (f : Flags) : (s.setFlags f).cfg = s.cfg := rfl
@[simp] theorem setFlags_phase (f : Flags) : (s.setFlags f).phase = s.phase := rfl

@[simp] theorem setSp_a (w : Word) : (s.setSp w).a = s.a := rfl
@[simp] theorem setSp_x (w : Word) : (s.setSp w).x = s.x := rfl
@[simp] theorem setSp_y (w : Word) : (s.setSp w).y = s.y := rfl
@[simp] theorem setSp_flags (w : Word) : (s.setSp w).flags = s.flags := rfl
@[simp] theorem setSp_sp (w : Word) : (s.setSp w).sp = w := rfl
@[simp] theorem setSp_pc (w : Word) : (s.setSp w).pc = s.pc := rfl
@[simp] theorem setSp_mem (w : Word) : (s.setSp w).mem = s.mem := rfl
@[simp] theorem setSp_fault (w : Word) : (s.setSp w).fault = s.fault := rfl
@[simp] theorem setSp_stream (w : Word) : (s.setSp w).stream = s.stream := rfl
@[simp] theorem setSp_cfg (w : Word) : (s.setSp w).cfg = s.cfg := rfl
@[simp] theorem setSp_phase (w : Word) : (s.setSp w).phase = s.phase := rfl

@[simp] theorem setPc_a (w : Word) : (s.setPc w).a = s.a := rfl
@[simp] theorem setPc_x (w : Word) : (s.setPc w).x = s.x := rfl
@[simp] theorem setPc_y (w : Word) : (s.setPc w).y = s.y := rfl
@[simp] theorem setPc_flags (w : Word) : (s.setPc w).flags = s.flags := rfl
@[simp] theorem setPc_sp (w : Word) : (s.setPc w).sp = s.sp := rfl
@[simp] theorem setPc_pc (w : Word) : (s.setPc w).pc = w := rfl
@[simp] theorem setPc_mem (w : Word) : (s.setPc w).mem = s.mem := rfl
@[simp] theorem setPc_fault (w : Word) : (s.setPc w).fault = s.fault := rfl
@[simp] theorem setPc_stream (w : Word) : (s.setPc w).stream = s.stream := rfl
@[simp] theorem setPc_cfg (w : Word) : (s.setPc w).cfg = s.cfg := rfl
@[simp] theorem setPc_phase (w : Word) : (s.setPc w).phase = s.phase := rfl

@[simp] theorem setMem_a (m : Memory) : (s.setMem m).a = s.a := rfl
@[simp] theorem setMem_x (m : Memory) : (s.setMem m).x = s.x := rfl
@[simp] theorem setMem_y (m : Memory) : (s.setMem m).y = s.y := rfl
@[simp] theorem setMem_flags (m : Memory) : (s.setMem m).flags = s.flags := rfl
@[simp] theorem setMem_sp (m : Memory) : (s.setMem m).sp = s.sp := rfl
@[simp] theorem setMem_pc (m : Memory) : (s.setMem m).pc = s.pc := rfl
@[simp] theorem setMem_mem (m : Memory) : (s.setMem m).mem = m := rfl
@[simp] theorem setMem_fault (m : Memory) : (s.setMem m).fault = s.fault := rfl
@[simp] theorem setMem_stream (m : Memory) : (s.setMem m).stream = s.stream := rfl
@[simp] theorem setMem_cfg (m : Memory) : (s.setMem m).cfg = s.cfg := rfl
@[simp] theorem setMem_phase (m : Memory) : (s.setMem m).phase = s.phase := rfl

@[simp] theorem setFault_a (f : Option Fault) : (s.setFault f).a = s.a := rfl
@[simp] theorem setFault_x (f : Option Fault) : (s.setFault f).x = s.x := rfl
@[simp] theorem setFault_y (f : Option Fault) : (s.setFault f).y = s.y := rfl
@[simp] theorem setFault_flags (f : Option Fault) : (s.setFault f).flags = s.flags := rfl
@[simp] theorem setFault_sp (f : Option Fault) : (s.setFault f).sp = s.sp := rfl
@[simp] theorem setFault_pc (f : Option Fault) : (s.setFault f).pc = s.pc := rfl
@[simp] theorem setFault_mem (f : Option Fault) : (s.setFault f).mem = s.mem := rfl
@[simp] theorem setFault_fault (f : Option Fault) : (s.setFault f).fault = f := rfl
@[simp] theorem setFault_stream (f : Option Fault) : (s.setFault f).stream = s.stream := rfl
@[simp] theorem setFault_cfg (f : Option Fault) : (s.setFault f).cfg = s.cfg := rfl
@[simp] theorem setFault_phase (f : Option Fault) : (s.setFault f).phase = s.phase := rfl

@[simp] theorem setStream_a (bs : List Byte) : (s.setStream bs).a = s.a := rfl
@[simp] theorem setStream_x (bs : List Byte) : (s.setStream bs).x = s.x := rfl
@[simp] theorem setStream_y (bs : List Byte) : (s.setStream bs).y = s.y := rfl
@[simp] theorem setStream_flags (bs : List Byte) : (s.setStream bs).flags = s.flags := rfl
@[simp] theorem setStream_sp (bs : List Byte) : (s.setStream bs).sp = s.sp := rfl
@[simp] theorem setStream_pc (bs : List Byte) : (s.setStream bs).pc = s.pc := rfl
@[simp] theorem setStream_mem (bs : List Byte) : (s.setStream bs).mem = s.mem := rfl
@[simp] theorem setStream_fault (bs : List Byte) : (s.setStream bs).fault = s.fault := rfl
@[simp] theorem setStream_stream (bs : List Byte) : (s.setStream bs).stream = bs := rfl
@[simp] theorem setStream_cfg (bs : List Byte) : (s.setStream bs).cfg = s.cfg := rfl
@[simp] theorem setStream_phase (bs : List Byte) : (s.setStream bs).phase = s.phase := rfl

@[simp] theorem setPhase_a (p : Phase) : (s.setPhase p).a = s.a := rfl
@[simp] theorem setPhase_x (p : Phase) : (s.setPhase p).x = s.x := rfl
@[simp] theorem setPhase_y (p : Phase) : (s.setPhase p).y = s.y := rfl
@[simp] theorem setPhase_flags (p : Phase) : (s.setPhase p).flags = s.flags := rfl
@[simp] theorem setPhase_sp (p : Phase) : (s.setPhase p).sp = s.sp := rfl
@[simp] theorem setPhase_pc (p : Phase) : (s.setPhase p).pc = s.pc := rfl
@[simp] theorem setPhase_mem (p : Phase) : (s.setPhase p).mem = s.mem := rfl
@[simp] theorem setPhase_fault (p : Phase) : (s.setPhase p).fault = s.fault := rfl
@[simp] theorem setPhase_stream (p : Phase) : (s.setPhase p).stream = s.stream := rfl
@[simp] theorem setPhase_cfg (p : Phase) : (s.setPhase p).cfg = s.cfg := rfl
@[simp] theorem setPhase_phase (p : Phase) : (s.setPhase p).phase = p := rfl

end Sys2Proof.Machine.State
end

