-- ==== Sys2Proof/Laws/Ops.lean ====
section
/-! SUPPORT. What each shared operation of Machine/Ops.lean can do. -/

namespace Sys2Proof.Machine

/-- Address `a` faults when accessed: outside MEM under `OOR_POLICY = Fault`. -/
def Faults (s : State) (a : Word) : Prop := memSize ≤ a.toNat ∧ s.cfg.oorPolicy = .fault

/-- Every fault of `r` is an address fault that the spec lets `s` raise. -/
def Grounded {α : Type} (s : State) (r : Except Fault α) : Prop :=
  ∀ f, r = .error f → ∃ a, f = .addressOutOfRange a ∧ Faults s a

theorem grounded_ok {α : Type} (s : State) (v : α) : Grounded s (.ok v) := fun _ h => nomatch h

theorem grounded_map {α β : Type} {s : State} {r : Except Fault α} (g : α → β) (h : Grounded s r) :
    Grounded s (r.map g) := by
  intro f hf
  cases r with
  | ok v => cases hf
  | error e => cases hf; exact h _ rfl

theorem grounded_bind {α β : Type} {s : State} {r : Except Fault α} {g : α → Except Fault β} (h : Grounded s r)
    (hg : ∀ v, r = .ok v → Grounded s (g v)) : Grounded s (r.bind g) := by
  intro f hf
  cases r with
  | ok v => exact hg v rfl f hf
  | error e => cases hf; exact h _ rfl

theorem map_ok {α β : Type} {r : Except Fault α} {g : α → β} {w : β} (h : r.map g = .ok w) :
    ∃ v, r = .ok v ∧ w = g v := by
  cases r with
  | ok v => cases h; exact ⟨v, rfl, rfl⟩
  | error e => cases h

theorem bind_ok {α β : Type} {r : Except Fault α} {g : α → Except Fault β} {w : β} (h : r.bind g = .ok w) :
    ∃ v, r = .ok v ∧ g v = .ok w := by
  cases r with
  | ok v => exact ⟨v, rfl, h⟩
  | error e => cases h

/-! ## Translate -/

theorem translateAddress_of_lt (cfg : Config) {a : Word} (h : a.toNat < memSize) : translateAddress cfg a = .ok a.toNat :=
  if_pos h

theorem translateAddress_of_fault {cfg : Config} {a : Word} (h : memSize ≤ a.toNat) (hp : cfg.oorPolicy = .fault) :
    translateAddress cfg a = .error (.addressOutOfRange a) := by
  simp [translateAddress, Nat.not_lt.mpr h, hp]

theorem translateAddress_of_mask {cfg : Config} {a : Word} (h : memSize ≤ a.toNat) (hp : cfg.oorPolicy = .mask13) :
    translateAddress cfg a = .ok (a.toNat % memSize) := by
  simp [translateAddress, Nat.not_lt.mpr h, hp]

/-- Every translated index lies inside MEM. -/
theorem translateAddress_lt {cfg : Config} {a : Word} {k : Nat} (h : translateAddress cfg a = .ok k) : k < memSize := by
  unfold translateAddress at h
  split at h
  · next hlt => cases h; exact hlt
  · split at h <;> cases h
    exact Nat.mod_lt _ (by decide)

theorem translateAddress_grounded (s : State) (a : Word) : Grounded s (translateAddress s.cfg a) := by
  intro f hf
  unfold translateAddress at hf
  split at hf
  · cases hf
  · next hge =>
    split at hf
    · next hp => cases hf; exact ⟨a, rfl, Nat.le_of_not_lt hge, hp⟩
    · cases hf

/-! ## Data memory -/

theorem memRead_grounded (s : State) (a : Word) : Grounded s (s.memRead a) := grounded_map _ (translateAddress_grounded s a)

theorem memRead_of_translate {s : State} {a : Word} {k : Nat} (h : translateAddress s.cfg a = .ok k) :
    s.memRead a = .ok (s.mem.read k) := by simp [State.memRead, h, Except.map]

theorem memWrite_grounded (s : State) (a : Word) (v : Byte) : Grounded s (s.memWrite a v) :=
  grounded_map _ (translateAddress_grounded s a)

theorem memWrite_of_translate {s : State} {a : Word} {k : Nat} (v : Byte) (h : translateAddress s.cfg a = .ok k) :
    s.memWrite a v = .ok (s.setMem (s.mem.write k v)) := by simp [State.memWrite, h, Except.map]

/-- A store changes MEM at the translated index and nothing else. -/
theorem memWrite_ok {s t : State} {a : Word} {v : Byte} (h : s.memWrite a v = .ok t) :
    ∃ k, translateAddress s.cfg a = .ok k ∧ t = s.setMem (s.mem.write k v) := map_ok h

/-! ## Fault entry -/

/-- An instruction commits its state, or only a fault record that has its ground. -/
theorem commit_next {s t : State} {r : Except Fault State} (hg : Grounded s r) (h : commit s r = .next t) :
    r = .ok t ∨ ∃ a, Faults s a ∧ t = s.setFault (some (.addressOutOfRange a)) := by
  cases r with
  | ok u => cases h; exact .inl rfl
  | error f =>
    obtain ⟨a, rfl, ha⟩ := hg f rfl
    cases h
    exact .inr ⟨a, ha, rfl⟩

@[simp] theorem commit_ok (s t : State) : commit s (.ok t) = .next t := rfl

@[simp] theorem commit_error (s : State) (f : Fault) : commit s (.error f) = .next (s.setFault (some f)) := rfl

/-! ## The stack -/

theorem push_grounded (s : State) (v : Byte) : Grounded s (s.push v) := grounded_map _ (memWrite_grounded s _ v)

/-- A push writes one byte at SP and moves SP down. -/
theorem push_ok {s t : State} {v : Byte} (h : s.push v = .ok t) :
    ∃ k, translateAddress s.cfg s.sp = .ok k ∧ t = (s.setMem (s.mem.write k v)).setSp (s.sp - 1) := by
  obtain ⟨u, hu, rfl⟩ := map_ok h
  obtain ⟨k, hk, rfl⟩ := memWrite_ok hu
  exact ⟨k, hk, rfl⟩

theorem pull_grounded (s : State) : Grounded s s.pull := grounded_map _ (memRead_grounded s _)

/-- A pull moves SP up and reads the byte there. -/
theorem pull_ok {s : State} {p : Byte × State} (h : s.pull = .ok p) :
    ∃ k, translateAddress s.cfg (s.sp + 1) = .ok k ∧ p = (s.mem.read k, s.setSp (s.sp + 1)) := by
  obtain ⟨v, hv, rfl⟩ := map_ok h
  obtain ⟨k, hk, rfl⟩ := map_ok hv
  exact ⟨k, hk, rfl⟩

end Sys2Proof.Machine
end

