-- ==== Sys2Proof/Laws/Operands.lean ====
section
/-! SUPPORT. What effective addresses and the operand helpers can do. -/

namespace Sys2Proof.Machine

theorem zext16_toNat (b : Byte) : (zext16 b).toNat = b.toNat := by
  have := b.isLt
  simp [zext16]
  omega

/-- The pointer's high byte lies at most at 0x0100 (40_dispatch_addressing.md R112, R113). -/
theorem ptrNext_le (cfg : Config) (p : Byte) : (ptrNext cfg p).toNat ≤ 0x100 := by
  unfold ptrNext
  split
  · have := (p + 1).isLt
    rw [zext16_toNat]
    omega
  · have := p.isLt
    rw [BitVec.toNat_add, zext16_toNat]
    simp
    omega

/-- The two pointer reads never fault. -/
theorem pointer_eq (s : State) (p : Byte) :
    s.pointer p = .ok (s.mem.read p.toNat, s.mem.read (ptrNext s.cfg p).toNat) := by
  have h1 : translateAddress s.cfg (zext16 p) = .ok p.toNat := by
    have := p.isLt
    rw [translateAddress_of_lt _ (by rw [zext16_toNat, memSize]; omega), zext16_toNat]
  have h2 : translateAddress s.cfg (ptrNext s.cfg p) = .ok (ptrNext s.cfg p).toNat :=
    translateAddress_of_lt _ (lt_of_le_of_lt (ptrNext_le s.cfg p) (by decide))
  simp [State.pointer, memRead_of_translate h1, memRead_of_translate h2, Except.bind, Except.map]

/-- Every mode resolves to an address. -/
theorem ea_isOk (s : State) (m : MemMode) : ∃ a, s.ea m = .ok a := by
  cases m <;> simp [State.ea, pointer_eq, Except.map]

theorem ea_grounded (s : State) (m : MemMode) : Grounded s (s.ea m) := by
  obtain ⟨a, ha⟩ := ea_isOk s m
  exact ha ▸ grounded_ok s a

/-- The procedure of `(zp),Y` is the pointer plus Y modulo 2^16 (40_dispatch_addressing.md R114). -/
theorem indexPointer_eq (lo hi y : Byte) : indexPointer lo hi y = wordOf hi lo + zext16 y := by
  apply BitVec.eq_of_toNat_eq
  have := lo.isLt
  have := hi.isLt
  have := y.isLt
  rw [indexPointer, wordOf_toNat, BitVec.toNat_add, zext16_toNat, wordOf_toNat, BitVec.toNat_ofNat, BitVec.toNat_ofNat]
  omega

theorem readSource_grounded (s : State) (src : Source) : Grounded s (s.readSource src) := by
  cases src with
  | imm v => exact grounded_ok s v
  | mem m => exact grounded_bind (ea_grounded s m) fun a _ => memRead_grounded s a

theorem readSource_mem {s : State} {m : MemMode} {a : Word} {k : Nat} (ha : s.ea m = .ok a)
    (hk : translateAddress s.cfg a = .ok k) : s.readSource (.mem m) = .ok (s.mem.read k) := by
  simp [State.readSource, ha, memRead_of_translate hk, Except.bind]

theorem readSource_fault {s : State} {m : MemMode} {a : Word} (ha : s.ea m = .ok a) (hf : Faults s a) :
    s.readSource (.mem m) = .error (.addressOutOfRange a) := by
  simp [State.readSource, ha, State.memRead, translateAddress_of_fault hf.1 hf.2, Except.bind, Except.map]

variable {s : State} {f : Byte → Byte} {flags : Byte → Byte → Flags}

theorem rmw_grounded (s : State) (t : Target) (f : Byte → Byte) (flags : Byte → Byte → Flags) :
    Grounded s (s.rmw t f flags) := by
  cases t with
  | acc => exact grounded_ok s _
  | mem m =>
    exact grounded_bind (ea_grounded s m) fun a _ => grounded_bind (memRead_grounded s a) fun v _ =>
      grounded_map _ (memWrite_grounded s a _)

theorem rmw_mem {m : MemMode} {a : Word} {k : Nat} (ha : s.ea m = .ok a) (hk : translateAddress s.cfg a = .ok k) :
    s.rmw (.mem m) f flags = .ok ((s.setMem (s.mem.write k (f (s.mem.read k)))).setFlags
      (flags (s.mem.read k) (f (s.mem.read k)))) := by
  simp [State.rmw, ha, memRead_of_translate hk, memWrite_of_translate _ hk, Except.bind, Except.map]

theorem rmw_fault {m : MemMode} {a : Word} (ha : s.ea m = .ok a) (hf : Faults s a) :
    s.rmw (.mem m) f flags = .error (.addressOutOfRange a) := by
  simp [State.rmw, ha, State.memRead, translateAddress_of_fault hf.1 hf.2, Except.bind, Except.map]

/-- A read-modify-write writes A and the flags, or one byte of MEM at the effective address and the flags. -/
theorem rmw_ok {t : Target} {u : State} (h : s.rmw t f flags = .ok u) :
    (t = .acc ∧ u = (s.setA (f s.a)).setFlags (flags s.a (f s.a)))
      ∨ ∃ m a k, t = .mem m ∧ s.ea m = .ok a ∧ translateAddress s.cfg a = .ok k
        ∧ u = (s.setMem (s.mem.write k (f (s.mem.read k)))).setFlags (flags (s.mem.read k) (f (s.mem.read k))) := by
  cases t with
  | acc => cases h; exact .inl ⟨rfl, rfl⟩
  | mem m =>
    obtain ⟨a, ha, h⟩ := bind_ok h
    obtain ⟨v, hv, h⟩ := bind_ok h
    obtain ⟨w, hw, rfl⟩ := map_ok h
    obtain ⟨k, hk, rfl⟩ := map_ok hv
    obtain ⟨j, hj, rfl⟩ := memWrite_ok hw
    obtain rfl : k = j := by simpa [hk] using hj
    exact .inr ⟨m, a, k, rfl, ha, hk, rfl⟩

end Sys2Proof.Machine
end

