-- ==== Sys2Proof/Laws/Families.lean ====
section
/-! SUPPORT. What the shared operation of each family can do: one inversion lemma each, for the meanings that are one
line over it. -/

namespace Sys2Proof.Machine

/-- The state before, with a grounded address fault latched. -/
def Faulted (s t : State) : Prop := ∃ a, Faults s a ∧ t = s.setFault (some (.addressOutOfRange a))

variable {s t : State}

theorem load_next {set : State → Byte → State} {src : Source} (h : load set src s = .next t) :
    (∃ v, s.readSource src = .ok v ∧ t = (set s v).setFlags (s.flags.setNZ v)) ∨ Faulted s t := by
  rcases commit_next (grounded_map _ (readSource_grounded s src)) h with h | h
  · obtain ⟨v, hv, rfl⟩ := map_ok h
    exact .inl ⟨v, hv, rfl⟩
  · exact .inr h

theorem store_next {v : Byte} {m : MemMode} (h : store v m s = .next t) :
    (∃ a k, s.ea m = .ok a ∧ translateAddress s.cfg a = .ok k ∧ t = s.setMem (s.mem.write k v)) ∨ Faulted s t := by
  rcases commit_next (grounded_bind (ea_grounded s m) fun a _ => memWrite_grounded s a v) h with h | h
  · obtain ⟨a, ha, h⟩ := bind_ok h
    obtain ⟨k, hk, rfl⟩ := memWrite_ok h
    exact .inl ⟨a, k, ha, hk, rfl⟩
  · exact .inr h

theorem logical_next {f : Byte → Byte → Byte} {src : Source} (h : logical f src s = .next t) :
    (∃ m, s.readSource src = .ok m ∧ t = (s.setA (f s.a m)).setFlags (s.flags.setNZ (f s.a m))) ∨ Faulted s t := by
  rcases commit_next (grounded_map _ (readSource_grounded s src)) h with h | h
  · obtain ⟨v, hv, rfl⟩ := map_ok h
    exact .inl ⟨v, hv, rfl⟩
  · exact .inr h

theorem arithmetic_next {f : Int → Int → Int} {src : Source} (h : arithmetic f src s = .next t) :
    (∃ m, s.readSource src = .ok m ∧ t = (s.setA (BitVec.ofInt 8 (f s.a.toNat m.toNat))).setFlags
      (s.flags.setArith (f s.a.toNat m.toNat) s.a m)) ∨ Faulted s t := by
  rcases commit_next (grounded_map _ (readSource_grounded s src)) h with h | h
  · obtain ⟨v, hv, rfl⟩ := map_ok h
    exact .inl ⟨v, hv, rfl⟩
  · exact .inr h

/-- The read-modify-write forms: A or one byte of MEM, and the flags. -/
theorem commit_rmw_next {tg : Target} {f : Byte → Byte} {flags : Byte → Byte → Flags}
    (h : commit s (s.rmw tg f flags) = .next t) :
    (tg = .acc ∧ t = (s.setA (f s.a)).setFlags (flags s.a (f s.a)))
      ∨ (∃ m a k, tg = .mem m ∧ s.ea m = .ok a ∧ translateAddress s.cfg a = .ok k
        ∧ t = (s.setMem (s.mem.write k (f (s.mem.read k)))).setFlags (flags (s.mem.read k) (f (s.mem.read k))))
      ∨ Faulted s t := by
  rcases commit_next (rmw_grounded s tg f flags) h with h | h
  · rcases rmw_ok h with h | h
    · exact .inl h
    · exact .inr (.inl h)
  · exact .inr (.inr h)

theorem push_next {v : Byte} (h : commit s (s.push v) = .next t) :
    (∃ k, translateAddress s.cfg s.sp = .ok k ∧ t = (s.setMem (s.mem.write k v)).setSp (s.sp - 1)) ∨ Faulted s t := by
  rcases commit_next (push_grounded s v) h with h | h
  · exact .inl (push_ok h)
  · exact .inr h

theorem pull_next {g : Byte × State → State} (h : commit s (s.pull.map g) = .next t) :
    (∃ k, translateAddress s.cfg (s.sp + 1) = .ok k ∧ t = g (s.mem.read k, s.setSp (s.sp + 1))) ∨ Faulted s t := by
  rcases commit_next (grounded_map _ (pull_grounded s)) h with h | h
  · obtain ⟨p, hp, rfl⟩ := map_ok h
    obtain ⟨k, hk, rfl⟩ := pull_ok hp
    exact .inl ⟨k, hk, rfl⟩
  · exact .inr h

end Sys2Proof.Machine
end

