-- ==== Sys2Proof/Laws/PerInstr.lean ====
section
/-! SUPPORT. One lemma for each constructor of `Instr`: the map's cell at the instruction's opcode byte makes that
very instruction from the instruction's operand bytes (30_encoding.md R81, R85). -/

namespace Sys2Proof.Laws.MapCell

/-- The cell of `i`'s opcode takes `i`'s operand bytes, and nothing more, to `i`, and has `i`'s length; an undefined
byte is claimed only where the map has no cell for it. -/
def Statement (i : Instr) : Prop :=
  ∀ (op : Byte) (operands rest : List Byte), encode i = op :: operands → (i.mnemonic = .undefined → mapCell op = none) →
    ((mapCell op).getD (.f1 (.undefined op))).take op (operands ++ rest) = .ok (i, rest)
      ∧ ((mapCell op).getD (.f1 (.undefined op))).length = i.length

theorem of_f1 (i : Instr) (op : Byte) (he : encode i = [op]) (hc : mapCell op = some (.f1 i)) : Statement i := by
  intro op' operands rest h _
  obtain ⟨rfl, rfl⟩ := List.cons.inj (he ▸ h)
  simp [hc, Format.take, Format.length, Instr.length, he]

theorem of_f2 (f : Byte → Instr) (b op : Byte) (he : encode (f b) = [op, b]) (hc : mapCell op = some (.f2 f)) :
    Statement (f b) := by
  intro op' operands rest h _
  obtain ⟨rfl, rfl⟩ := List.cons.inj (he ▸ h)
  simp [hc, Format.take, Format.length, Instr.length, he]

theorem of_f3 (f : Word → Instr) (w : Word) (op : Byte) (he : encode (f w) = encodeWord op w)
    (hc : mapCell op = some (.f3 f)) : Statement (f w) := by
  intro op' operands rest h _
  obtain ⟨rfl, rfl⟩ := List.cons.inj (he ▸ h)
  simp [hc, Format.take, Format.length, Instr.length, he, encodeWord, wordOf_high_low]

theorem ldaImm (v : Byte) : Statement (.ldaImm v) := of_f2 .ldaImm _ 0xA9 rfl rfl
theorem ldaZp (zp : Byte) : Statement (.ldaZp zp) := of_f2 .ldaZp _ 0xA5 rfl rfl
theorem ldaZpX (zp : Byte) : Statement (.ldaZpX zp) := of_f2 .ldaZpX _ 0xB5 rfl rfl
theorem ldaAbs (addr : Word) : Statement (.ldaAbs addr) := of_f3 .ldaAbs _ 0xAD rfl rfl
theorem ldaAbsX (addr : Word) : Statement (.ldaAbsX addr) := of_f3 .ldaAbsX _ 0xBD rfl rfl
theorem ldaAbsY (addr : Word) : Statement (.ldaAbsY addr) := of_f3 .ldaAbsY _ 0xB9 rfl rfl
theorem ldaIndX (zp : Byte) : Statement (.ldaIndX zp) := of_f2 .ldaIndX _ 0xA1 rfl rfl
theorem ldaIndY (zp : Byte) : Statement (.ldaIndY zp) := of_f2 .ldaIndY _ 0xB1 rfl rfl
theorem ldxImm (v : Byte) : Statement (.ldxImm v) := of_f2 .ldxImm _ 0xA2 rfl rfl
theorem ldxZp (zp : Byte) : Statement (.ldxZp zp) := of_f2 .ldxZp _ 0xA6 rfl rfl
theorem ldxZpY (zp : Byte) : Statement (.ldxZpY zp) := of_f2 .ldxZpY _ 0xB6 rfl rfl
theorem ldxAbs (addr : Word) : Statement (.ldxAbs addr) := of_f3 .ldxAbs _ 0xAE rfl rfl
theorem ldxAbsY (addr : Word) : Statement (.ldxAbsY addr) := of_f3 .ldxAbsY _ 0xBE rfl rfl
theorem ldyImm (v : Byte) : Statement (.ldyImm v) := of_f2 .ldyImm _ 0xA0 rfl rfl
theorem ldyZp (zp : Byte) : Statement (.ldyZp zp) := of_f2 .ldyZp _ 0xA4 rfl rfl
theorem ldyZpX (zp : Byte) : Statement (.ldyZpX zp) := of_f2 .ldyZpX _ 0xB4 rfl rfl
theorem ldyAbs (addr : Word) : Statement (.ldyAbs addr) := of_f3 .ldyAbs _ 0xAC rfl rfl
theorem ldyAbsX (addr : Word) : Statement (.ldyAbsX addr) := of_f3 .ldyAbsX _ 0xBC rfl rfl
theorem staZp (zp : Byte) : Statement (.staZp zp) := of_f2 .staZp _ 0x85 rfl rfl
theorem staZpX (zp : Byte) : Statement (.staZpX zp) := of_f2 .staZpX _ 0x95 rfl rfl
theorem staAbs (addr : Word) : Statement (.staAbs addr) := of_f3 .staAbs _ 0x8D rfl rfl
theorem staAbsX (addr : Word) : Statement (.staAbsX addr) := of_f3 .staAbsX _ 0x9D rfl rfl
theorem staAbsY (addr : Word) : Statement (.staAbsY addr) := of_f3 .staAbsY _ 0x99 rfl rfl
theorem staIndX (zp : Byte) : Statement (.staIndX zp) := of_f2 .staIndX _ 0x81 rfl rfl
theorem staIndY (zp : Byte) : Statement (.staIndY zp) := of_f2 .staIndY _ 0x91 rfl rfl
theorem stxZp (zp : Byte) : Statement (.stxZp zp) := of_f2 .stxZp _ 0x86 rfl rfl
theorem stxZpY (zp : Byte) : Statement (.stxZpY zp) := of_f2 .stxZpY _ 0x96 rfl rfl
theorem stxAbs (addr : Word) : Statement (.stxAbs addr) := of_f3 .stxAbs _ 0x8E rfl rfl
theorem styZp (zp : Byte) : Statement (.styZp zp) := of_f2 .styZp _ 0x84 rfl rfl
theorem styZpX (zp : Byte) : Statement (.styZpX zp) := of_f2 .styZpX _ 0x94 rfl rfl
theorem styAbs (addr : Word) : Statement (.styAbs addr) := of_f3 .styAbs _ 0x8C rfl rfl
theorem oraImm (v : Byte) : Statement (.oraImm v) := of_f2 .oraImm _ 0x09 rfl rfl
theorem oraZp (zp : Byte) : Statement (.oraZp zp) := of_f2 .oraZp _ 0x05 rfl rfl
theorem oraZpX (zp : Byte) : Statement (.oraZpX zp) := of_f2 .oraZpX _ 0x15 rfl rfl
theorem oraAbs (addr : Word) : Statement (.oraAbs addr) := of_f3 .oraAbs _ 0x0D rfl rfl
theorem oraAbsX (addr : Word) : Statement (.oraAbsX addr) := of_f3 .oraAbsX _ 0x1D rfl rfl
theorem oraAbsY (addr : Word) : Statement (.oraAbsY addr) := of_f3 .oraAbsY _ 0x19 rfl rfl
theorem oraIndX (zp : Byte) : Statement (.oraIndX zp) := of_f2 .oraIndX _ 0x01 rfl rfl
theorem oraIndY (zp : Byte) : Statement (.oraIndY zp) := of_f2 .oraIndY _ 0x11 rfl rfl
theorem andImm (v : Byte) : Statement (.andImm v) := of_f2 .andImm _ 0x29 rfl rfl
theorem andZp (zp : Byte) : Statement (.andZp zp) := of_f2 .andZp _ 0x25 rfl rfl
theorem andZpX (zp : Byte) : Statement (.andZpX zp) := of_f2 .andZpX _ 0x35 rfl rfl
theorem andAbs (addr : Word) : Statement (.andAbs addr) := of_f3 .andAbs _ 0x2D rfl rfl
theorem andAbsX (addr : Word) : Statement (.andAbsX addr) := of_f3 .andAbsX _ 0x3D rfl rfl
theorem andAbsY (addr : Word) : Statement (.andAbsY addr) := of_f3 .andAbsY _ 0x39 rfl rfl
theorem andIndX (zp : Byte) : Statement (.andIndX zp) := of_f2 .andIndX _ 0x21 rfl rfl
theorem andIndY (zp : Byte) : Statement (.andIndY zp) := of_f2 .andIndY _ 0x31 rfl rfl
theorem eorImm (v : Byte) : Statement (.eorImm v) := of_f2 .eorImm _ 0x49 rfl rfl
theorem eorZp (zp : Byte) : Statement (.eorZp zp) := of_f2 .eorZp _ 0x45 rfl rfl
theorem eorZpX (zp : Byte) : Statement (.eorZpX zp) := of_f2 .eorZpX _ 0x55 rfl rfl
theorem eorAbs (addr : Word) : Statement (.eorAbs addr) := of_f3 .eorAbs _ 0x4D rfl rfl
theorem eorAbsX (addr : Word) : Statement (.eorAbsX addr) := of_f3 .eorAbsX _ 0x5D rfl rfl
theorem eorAbsY (addr : Word) : Statement (.eorAbsY addr) := of_f3 .eorAbsY _ 0x59 rfl rfl
theorem eorIndX (zp : Byte) : Statement (.eorIndX zp) := of_f2 .eorIndX _ 0x41 rfl rfl
theorem eorIndY (zp : Byte) : Statement (.eorIndY zp) := of_f2 .eorIndY _ 0x51 rfl rfl
theorem adcImm (v : Byte) : Statement (.adcImm v) := of_f2 .adcImm _ 0x69 rfl rfl
theorem adcZp (zp : Byte) : Statement (.adcZp zp) := of_f2 .adcZp _ 0x65 rfl rfl
theorem adcZpX (zp : Byte) : Statement (.adcZpX zp) := of_f2 .adcZpX _ 0x75 rfl rfl
theorem adcAbs (addr : Word) : Statement (.adcAbs addr) := of_f3 .adcAbs _ 0x6D rfl rfl
theorem adcAbsX (addr : Word) : Statement (.adcAbsX addr) := of_f3 .adcAbsX _ 0x7D rfl rfl
theorem adcAbsY (addr : Word) : Statement (.adcAbsY addr) := of_f3 .adcAbsY _ 0x79 rfl rfl
theorem adcIndX (zp : Byte) : Statement (.adcIndX zp) := of_f2 .adcIndX _ 0x61 rfl rfl
theorem adcIndY (zp : Byte) : Statement (.adcIndY zp) := of_f2 .adcIndY _ 0x71 rfl rfl
theorem sbcImm (v : Byte) : Statement (.sbcImm v) := of_f2 .sbcImm _ 0xE9 rfl rfl
theorem sbcZp (zp : Byte) : Statement (.sbcZp zp) := of_f2 .sbcZp _ 0xE5 rfl rfl
theorem sbcZpX (zp : Byte) : Statement (.sbcZpX zp) := of_f2 .sbcZpX _ 0xF5 rfl rfl
theorem sbcAbs (addr : Word) : Statement (.sbcAbs addr) := of_f3 .sbcAbs _ 0xED rfl rfl
theorem sbcAbsX (addr : Word) : Statement (.sbcAbsX addr) := of_f3 .sbcAbsX _ 0xFD rfl rfl
theorem sbcAbsY (addr : Word) : Statement (.sbcAbsY addr) := of_f3 .sbcAbsY _ 0xF9 rfl rfl
theorem sbcIndX (zp : Byte) : Statement (.sbcIndX zp) := of_f2 .sbcIndX _ 0xE1 rfl rfl
theorem sbcIndY (zp : Byte) : Statement (.sbcIndY zp) := of_f2 .sbcIndY _ 0xF1 rfl rfl
theorem aslAcc : Statement .aslAcc := of_f1 _ 0x0A rfl rfl
theorem aslZp (zp : Byte) : Statement (.aslZp zp) := of_f2 .aslZp _ 0x06 rfl rfl
theorem aslZpX (zp : Byte) : Statement (.aslZpX zp) := of_f2 .aslZpX _ 0x16 rfl rfl
theorem aslAbs (addr : Word) : Statement (.aslAbs addr) := of_f3 .aslAbs _ 0x0E rfl rfl
theorem aslAbsX (addr : Word) : Statement (.aslAbsX addr) := of_f3 .aslAbsX _ 0x1E rfl rfl
theorem lsrAcc : Statement .lsrAcc := of_f1 _ 0x4A rfl rfl
theorem lsrZp (zp : Byte) : Statement (.lsrZp zp) := of_f2 .lsrZp _ 0x46 rfl rfl
theorem lsrZpX (zp : Byte) : Statement (.lsrZpX zp) := of_f2 .lsrZpX _ 0x56 rfl rfl
theorem lsrAbs (addr : Word) : Statement (.lsrAbs addr) := of_f3 .lsrAbs _ 0x4E rfl rfl
theorem lsrAbsX (addr : Word) : Statement (.lsrAbsX addr) := of_f3 .lsrAbsX _ 0x5E rfl rfl
theorem rolAcc : Statement .rolAcc := of_f1 _ 0x2A rfl rfl
theorem rolZp (zp : Byte) : Statement (.rolZp zp) := of_f2 .rolZp _ 0x26 rfl rfl
theorem rolZpX (zp : Byte) : Statement (.rolZpX zp) := of_f2 .rolZpX _ 0x36 rfl rfl
theorem rolAbs (addr : Word) : Statement (.rolAbs addr) := of_f3 .rolAbs _ 0x2E rfl rfl
theorem rolAbsX (addr : Word) : Statement (.rolAbsX addr) := of_f3 .rolAbsX _ 0x3E rfl rfl
theorem rorAcc : Statement .rorAcc := of_f1 _ 0x6A rfl rfl
theorem rorZp (zp : Byte) : Statement (.rorZp zp) := of_f2 .rorZp _ 0x66 rfl rfl
theorem rorZpX (zp : Byte) : Statement (.rorZpX zp) := of_f2 .rorZpX _ 0x76 rfl rfl
theorem rorAbs (addr : Word) : Statement (.rorAbs addr) := of_f3 .rorAbs _ 0x6E rfl rfl
theorem rorAbsX (addr : Word) : Statement (.rorAbsX addr) := of_f3 .rorAbsX _ 0x7E rfl rfl
theorem incZp (zp : Byte) : Statement (.incZp zp) := of_f2 .incZp _ 0xE6 rfl rfl
theorem incZpX (zp : Byte) : Statement (.incZpX zp) := of_f2 .incZpX _ 0xF6 rfl rfl
theorem incAbs (addr : Word) : Statement (.incAbs addr) := of_f3 .incAbs _ 0xEE rfl rfl
theorem incAbsX (addr : Word) : Statement (.incAbsX addr) := of_f3 .incAbsX _ 0xFE rfl rfl
theorem decZp (zp : Byte) : Statement (.decZp zp) := of_f2 .decZp _ 0xC6 rfl rfl
theorem decZpX (zp : Byte) : Statement (.decZpX zp) := of_f2 .decZpX _ 0xD6 rfl rfl
theorem decAbs (addr : Word) : Statement (.decAbs addr) := of_f3 .decAbs _ 0xCE rfl rfl
theorem decAbsX (addr : Word) : Statement (.decAbsX addr) := of_f3 .decAbsX _ 0xDE rfl rfl
theorem inx : Statement .inx := of_f1 _ 0xE8 rfl rfl
theorem iny : Statement .iny := of_f1 _ 0xC8 rfl rfl
theorem dex : Statement .dex := of_f1 _ 0xCA rfl rfl
theorem dey : Statement .dey := of_f1 _ 0x88 rfl rfl
theorem tax : Statement .tax := of_f1 _ 0xAA rfl rfl
theorem txa : Statement .txa := of_f1 _ 0x8A rfl rfl
theorem tay : Statement .tay := of_f1 _ 0xA8 rfl rfl
theorem tya : Statement .tya := of_f1 _ 0x98 rfl rfl
theorem tsx : Statement .tsx := of_f1 _ 0xBA rfl rfl
theorem txs : Statement .txs := of_f1 _ 0x9A rfl rfl
theorem pha : Statement .pha := of_f1 _ 0x48 rfl rfl
theorem pla : Statement .pla := of_f1 _ 0x68 rfl rfl
theorem php : Statement .php := of_f1 _ 0x08 rfl rfl
theorem plp : Statement .plp := of_f1 _ 0x28 rfl rfl
theorem clc : Statement .clc := of_f1 _ 0x18 rfl rfl
theorem sec : Statement .sec := of_f1 _ 0x38 rfl rfl
theorem cli : Statement .cli := of_f1 _ 0x58 rfl rfl
theorem sei : Statement .sei := of_f1 _ 0x78 rfl rfl
theorem cld : Statement .cld := of_f1 _ 0xD8 rfl rfl
theorem sed : Statement .sed := of_f1 _ 0xF8 rfl rfl
theorem clv : Statement .clv := of_f1 _ 0xB8 rfl rfl
theorem brk : Statement .brk := of_f1 _ 0x00 rfl rfl
theorem bpl (rel : Byte) : Statement (.bpl rel) := of_f2 .bpl _ 0x10 rfl rfl
theorem bmi (rel : Byte) : Statement (.bmi rel) := of_f2 .bmi _ 0x30 rfl rfl
theorem bvc (rel : Byte) : Statement (.bvc rel) := of_f2 .bvc _ 0x50 rfl rfl
theorem bvs (rel : Byte) : Statement (.bvs rel) := of_f2 .bvs _ 0x70 rfl rfl
theorem bcc (rel : Byte) : Statement (.bcc rel) := of_f2 .bcc _ 0x90 rfl rfl
theorem bcs (rel : Byte) : Statement (.bcs rel) := of_f2 .bcs _ 0xB0 rfl rfl
theorem bne (rel : Byte) : Statement (.bne rel) := of_f2 .bne _ 0xD0 rfl rfl
theorem beq (rel : Byte) : Statement (.beq rel) := of_f2 .beq _ 0xF0 rfl rfl
theorem jmpAbs (addr : Word) : Statement (.jmpAbs addr) := of_f3 .jmpAbs _ 0x4C rfl rfl
theorem jmpInd (addr : Word) : Statement (.jmpInd addr) := of_f3 .jmpInd _ 0x6C rfl rfl
theorem jsr (addr : Word) : Statement (.jsr addr) := of_f3 .jsr _ 0x20 rfl rfl
theorem rts : Statement .rts := of_f1 _ 0x60 rfl rfl
theorem rti : Statement .rti := of_f1 _ 0x40 rfl rfl
theorem cmpImm (v : Byte) : Statement (.cmpImm v) := of_f2 .cmpImm _ 0xC9 rfl rfl
theorem cmpZp (zp : Byte) : Statement (.cmpZp zp) := of_f2 .cmpZp _ 0xC5 rfl rfl
theorem cmpZpX (zp : Byte) : Statement (.cmpZpX zp) := of_f2 .cmpZpX _ 0xD5 rfl rfl
theorem cmpAbs (addr : Word) : Statement (.cmpAbs addr) := of_f3 .cmpAbs _ 0xCD rfl rfl
theorem cmpAbsX (addr : Word) : Statement (.cmpAbsX addr) := of_f3 .cmpAbsX _ 0xDD rfl rfl
theorem cmpAbsY (addr : Word) : Statement (.cmpAbsY addr) := of_f3 .cmpAbsY _ 0xD9 rfl rfl
theorem cmpIndX (zp : Byte) : Statement (.cmpIndX zp) := of_f2 .cmpIndX _ 0xC1 rfl rfl
theorem cmpIndY (zp : Byte) : Statement (.cmpIndY zp) := of_f2 .cmpIndY _ 0xD1 rfl rfl
theorem cpxImm (v : Byte) : Statement (.cpxImm v) := of_f2 .cpxImm _ 0xE0 rfl rfl
theorem cpxZp (zp : Byte) : Statement (.cpxZp zp) := of_f2 .cpxZp _ 0xE4 rfl rfl
theorem cpxAbs (addr : Word) : Statement (.cpxAbs addr) := of_f3 .cpxAbs _ 0xEC rfl rfl
theorem cpyImm (v : Byte) : Statement (.cpyImm v) := of_f2 .cpyImm _ 0xC0 rfl rfl
theorem cpyZp (zp : Byte) : Statement (.cpyZp zp) := of_f2 .cpyZp _ 0xC4 rfl rfl
theorem cpyAbs (addr : Word) : Statement (.cpyAbs addr) := of_f3 .cpyAbs _ 0xCC rfl rfl
theorem bitZp (zp : Byte) : Statement (.bitZp zp) := of_f2 .bitZp _ 0x24 rfl rfl
theorem bitAbs (addr : Word) : Statement (.bitAbs addr) := of_f3 .bitAbs _ 0x2C rfl rfl
theorem undefined (op : Byte) : Statement (.undefined op) := by
  intro op' operands rest h hnone
  obtain ⟨rfl, rfl⟩ := List.cons.inj (show [op] = op' :: operands from h)
  simp [hnone rfl, Format.take, Format.length, Instr.length, encode]

end Sys2Proof.Laws.MapCell
end

