-- ==== Sys2Proof/Laws/Step.lean ====
section
/-! SUPPORT. What fetch, the loop's plan and the loop's finish can do. -/

namespace Sys2Proof.Machine

theorem fetch_ok {s : State} {i : Instr} (h : s.fetch = .ok i) :
    ∃ rest, decode s.cfg (s.stream.drop s.pc.toNat) = .ok (i, rest) := by
  unfold State.fetch at h
  split at h
  · next j rest hd => cases h; exact ⟨rest, hd⟩
  · cases h

/-- A fetched instruction lies whole in the stream (40_dispatch_addressing.md R102). -/
theorem fetch_fits {s : State} {i : Instr} (h : s.fetch = .ok i) : s.pc.toNat + i.length ≤ s.stream.length := by
  obtain ⟨rest, hd⟩ := fetch_ok h
  have hl := decode_length hd
  have hp := length_pos i
  rw [List.length_drop] at hl
  omega

theorem fetch_error {s : State} {f : Fault} (h : s.fetch = .error f) : f = .fetchOutOfRange s.pc := by
  unfold State.fetch at h
  split at h <;> cases h
  rfl

/-- Every way a step can go, with its guards. -/
theorem step_cases (s : State) :
    (s.phase = .preReset ∧ step s = .refused .notReset)
      ∨ (∃ f, s.phase ≠ .preReset ∧ s.fault = some f ∧ step s = .fault f)
      ∨ (s.fault = none ∧ s.phase = .ended ∧ step s = .refused .runEnded)
      ∨ (s.fault = none ∧ s.phase = .running ∧ s.stream = [] ∧ step s = .next (s.setPhase .ended))
      ∨ (s.fault = none ∧ s.phase = .running ∧ s.stream ≠ [] ∧ s.fetch = .error (.fetchOutOfRange s.pc)
        ∧ step s = .next (s.setFault (some (.fetchOutOfRange s.pc))))
      ∨ ∃ i, s.fault = none ∧ s.phase = .running ∧ s.stream ≠ [] ∧ s.fetch = .ok i
        ∧ step s = finish i.length (exec i s) := by
  cases hp : s.phase with
  | preReset => exact .inl ⟨rfl, by simp [step, State.plan, hp]⟩
  | ended =>
    cases hf : s.fault with
    | some f => exact .inr (.inl ⟨f, nofun, rfl, by simp [step, State.plan, hf, hp]⟩)
    | none => exact .inr (.inr (.inl ⟨rfl, rfl, by simp [step, State.plan, hf, hp]⟩))
  | running =>
    cases hf : s.fault with
    | some f => exact .inr (.inl ⟨f, nofun, rfl, by simp [step, State.plan, hf, hp]⟩)
    | none =>
      cases hs : s.stream with
      | nil => exact .inr (.inr (.inr (.inl ⟨rfl, rfl, rfl, by simp [step, State.plan, hf, hp, hs]⟩)))
      | cons b bs =>
        cases hi : s.fetch with
        | error f =>
          obtain rfl := fetch_error hi
          exact .inr (.inr (.inr (.inr (.inl ⟨rfl, rfl, nofun, rfl, by
            simp [step, State.plan, hf, hp, hs, hi, takeFault]⟩))))
        | ok i =>
          exact .inr (.inr (.inr (.inr (.inr ⟨i, rfl, rfl, nofun, rfl, by
            simp [step, State.plan, hf, hp, hs, hi]⟩))))

/-- The host's finish answers a next state only from one: as it is after a fault, else with PC advanced. -/
theorem finish_next {len : Nat} {r : Result} {t : State} (h : finish len r = .next t) :
    ∃ u, r = .next u ∧ ((u.fault.isSome = true ∧ t = u) ∨ (u.fault = none ∧ t = u.advance len)) := by
  cases r with
  | next u =>
    simp only [finish] at h
    split at h
    · next hu => cases h; exact ⟨t, rfl, .inl ⟨hu, rfl⟩⟩
    · next hu => cases h; exact ⟨u, rfl, .inr ⟨by simpa using hu, rfl⟩⟩
  | fault f => cases h
  | refused f => cases h

@[simp] theorem advance_pc (s : State) (len : Nat) : (s.advance len).pc = BitVec.ofNat 16 (s.pc.toNat + len) := rfl
@[simp] theorem advance_mem (s : State) (len : Nat) : (s.advance len).mem = s.mem := rfl
@[simp] theorem advance_stream (s : State) (len : Nat) : (s.advance len).stream = s.stream := rfl
@[simp] theorem advance_cfg (s : State) (len : Nat) : (s.advance len).cfg = s.cfg := rfl
@[simp] theorem advance_fault (s : State) (len : Nat) : (s.advance len).fault = s.fault := rfl
@[simp] theorem advance_phase (s : State) (len : Nat) :
    (s.advance len).phase = if s.stream.length ≤ s.pc.toNat + len then .ended else .running := rfl

end Sys2Proof.Machine
end

