-- ==== Sys2Proof/Tests/Slice0.lean ====
section
/-! SUPPORT. Tests, with results from spec/95_test_vectors.md (each names its vector), from 30_encoding.md, or from
hand calculation where said; and witnesses that the hypotheses of the statements can be met together. -/

namespace Sys2Proof.Tests

open Sys2Proof.Machine

/-! ## Well-formedness: each check with an ill-formed term -/

/-- R87: a byte of the map is no undefined byte. -/
theorem test_wf_refuses_mapped_byte_as_undefined : WellFormed Config.default (.undefined 0xA9) = false := by decide

/-- R88: an opcode left out of IMPL_SET is no instruction of the map. -/
theorem test_wf_refuses_excluded_opcode :
    WellFormed { Config.default with implExcluded := [0xA9] } (.ldaImm 0x05) = false := by decide

theorem test_wf_accepts_excluded_byte_as_undefined :
    WellFormed { Config.default with implExcluded := [0xA9] } (.undefined 0xA9) = true := by decide

/-! ## Decoding -/

/-- Every row's table word reads as its instruction. -/
def decodesAll (rows : List (Nat × Nat × Instr)) : Bool :=
  rows.all fun r => decide (decodeTableWord r.1 r.2.1 = some r.2.2)

/-- Bit patterns from the rows of R86, one of each family and format. -/
theorem test_decode_bit_patterns : decodesAll [
    (16, 0b00000101_10101001, .ldaImm 0x05), (24, 0b00011111_11111110_10111101, .ldaAbsX 0x1FFE),
    (16, 0b00010000_10010001, .staIndY 0x10), (16, 0b01010000_01101001, .adcImm 0x50),
    (8, 0b00101010, .rolAcc), (16, 0b00100000_11110110, .incZpX 0x20), (8, 0b10011010, .txs),
    (8, 0b00101000, .plp), (16, 0b11111101_11010000, .bne 0xFD),
    (24, 0b00110000_00000000_01101100, .jmpInd 0x3000), (8, 0b11101010, .undefined 0xEA)] = true := by decide

/-! Every row of the opcode table, its operand bytes 0x5A and 0xC3. -/

theorem test_decode_load_store_1 : decodesAll [
    (16, 0x5AA1, .ldaIndX 0x5A), (16, 0x5AA5, .ldaZp 0x5A), (16, 0x5AA9, .ldaImm 0x5A),
    (24, 0xC35AAD, .ldaAbs 0xC35A), (16, 0x5AB1, .ldaIndY 0x5A), (16, 0x5AB5, .ldaZpX 0x5A),
    (24, 0xC35AB9, .ldaAbsY 0xC35A), (24, 0xC35ABD, .ldaAbsX 0xC35A), (16, 0x5AA2, .ldxImm 0x5A),
    (16, 0x5AA6, .ldxZp 0x5A), (24, 0xC35AAE, .ldxAbs 0xC35A), (16, 0x5AB6, .ldxZpY 0x5A),
    (24, 0xC35ABE, .ldxAbsY 0xC35A), (16, 0x5AA0, .ldyImm 0x5A), (16, 0x5AA4, .ldyZp 0x5A),
    (24, 0xC35AAC, .ldyAbs 0xC35A), (16, 0x5AB4, .ldyZpX 0x5A), (24, 0xC35ABC, .ldyAbsX 0xC35A),
    (16, 0x5A81, .staIndX 0x5A), (16, 0x5A85, .staZp 0x5A), (24, 0xC35A8D, .staAbs 0xC35A),
    (16, 0x5A91, .staIndY 0x5A), (16, 0x5A95, .staZpX 0x5A), (24, 0xC35A99, .staAbsY 0xC35A)] = true := by decide

theorem test_decode_load_store_2 : decodesAll [
    (24, 0xC35A9D, .staAbsX 0xC35A), (16, 0x5A86, .stxZp 0x5A), (24, 0xC35A8E, .stxAbs 0xC35A),
    (16, 0x5A96, .stxZpY 0x5A), (16, 0x5A84, .styZp 0x5A), (24, 0xC35A8C, .styAbs 0xC35A),
    (16, 0x5A94, .styZpX 0x5A)] = true := by decide

theorem test_decode_logic_arith_1 : decodesAll [
    (16, 0x5A01, .oraIndX 0x5A), (16, 0x5A05, .oraZp 0x5A), (16, 0x5A09, .oraImm 0x5A),
    (24, 0xC35A0D, .oraAbs 0xC35A), (16, 0x5A11, .oraIndY 0x5A), (16, 0x5A15, .oraZpX 0x5A),
    (24, 0xC35A19, .oraAbsY 0xC35A), (24, 0xC35A1D, .oraAbsX 0xC35A), (16, 0x5A21, .andIndX 0x5A),
    (16, 0x5A25, .andZp 0x5A), (16, 0x5A29, .andImm 0x5A), (24, 0xC35A2D, .andAbs 0xC35A),
    (16, 0x5A31, .andIndY 0x5A), (16, 0x5A35, .andZpX 0x5A), (24, 0xC35A39, .andAbsY 0xC35A),
    (24, 0xC35A3D, .andAbsX 0xC35A), (16, 0x5A41, .eorIndX 0x5A), (16, 0x5A45, .eorZp 0x5A),
    (16, 0x5A49, .eorImm 0x5A), (24, 0xC35A4D, .eorAbs 0xC35A), (16, 0x5A51, .eorIndY 0x5A),
    (16, 0x5A55, .eorZpX 0x5A), (24, 0xC35A59, .eorAbsY 0xC35A), (24, 0xC35A5D, .eorAbsX 0xC35A)] = true := by decide

theorem test_decode_logic_arith_2 : decodesAll [
    (16, 0x5A61, .adcIndX 0x5A), (16, 0x5A65, .adcZp 0x5A), (16, 0x5A69, .adcImm 0x5A),
    (24, 0xC35A6D, .adcAbs 0xC35A), (16, 0x5A71, .adcIndY 0x5A), (16, 0x5A75, .adcZpX 0x5A),
    (24, 0xC35A79, .adcAbsY 0xC35A), (24, 0xC35A7D, .adcAbsX 0xC35A), (16, 0x5AE1, .sbcIndX 0x5A),
    (16, 0x5AE5, .sbcZp 0x5A), (16, 0x5AE9, .sbcImm 0x5A), (24, 0xC35AED, .sbcAbs 0xC35A),
    (16, 0x5AF1, .sbcIndY 0x5A), (16, 0x5AF5, .sbcZpX 0x5A), (24, 0xC35AF9, .sbcAbsY 0xC35A),
    (24, 0xC35AFD, .sbcAbsX 0xC35A)] = true := by decide

theorem test_decode_shift_incdec_1 : decodesAll [
    (16, 0x5A06, .aslZp 0x5A), (8, 0x0A, .aslAcc), (24, 0xC35A0E, .aslAbs 0xC35A), (16, 0x5A16, .aslZpX 0x5A),
    (24, 0xC35A1E, .aslAbsX 0xC35A), (16, 0x5A46, .lsrZp 0x5A), (8, 0x4A, .lsrAcc),
    (24, 0xC35A4E, .lsrAbs 0xC35A), (16, 0x5A56, .lsrZpX 0x5A), (24, 0xC35A5E, .lsrAbsX 0xC35A),
    (16, 0x5A26, .rolZp 0x5A), (8, 0x2A, .rolAcc), (24, 0xC35A2E, .rolAbs 0xC35A), (16, 0x5A36, .rolZpX 0x5A),
    (24, 0xC35A3E, .rolAbsX 0xC35A), (16, 0x5A66, .rorZp 0x5A), (8, 0x6A, .rorAcc),
    (24, 0xC35A6E, .rorAbs 0xC35A), (16, 0x5A76, .rorZpX 0x5A), (24, 0xC35A7E, .rorAbsX 0xC35A),
    (16, 0x5AE6, .incZp 0x5A), (24, 0xC35AEE, .incAbs 0xC35A), (16, 0x5AF6, .incZpX 0x5A),
    (24, 0xC35AFE, .incAbsX 0xC35A)] = true := by decide

theorem test_decode_shift_incdec_2 : decodesAll [
    (16, 0x5AC6, .decZp 0x5A), (24, 0xC35ACE, .decAbs 0xC35A), (16, 0x5AD6, .decZpX 0x5A),
    (24, 0xC35ADE, .decAbsX 0xC35A), (8, 0xE8, .inx), (8, 0xC8, .iny), (8, 0xCA, .dex), (8, 0x88, .dey)] = true := by decide

theorem test_decode_transfer_stack_flag_1 : decodesAll [
    (8, 0xAA, .tax), (8, 0x8A, .txa), (8, 0xA8, .tay), (8, 0x98, .tya), (8, 0xBA, .tsx), (8, 0x9A, .txs),
    (8, 0x48, .pha), (8, 0x68, .pla), (8, 0x08, .php), (8, 0x28, .plp), (8, 0x18, .clc), (8, 0x38, .sec),
    (8, 0x58, .cli), (8, 0x78, .sei), (8, 0xD8, .cld), (8, 0xF8, .sed), (8, 0xB8, .clv)] = true := by decide

theorem test_decode_inert_1 : decodesAll [
    (8, 0x00, .brk), (16, 0x5A10, .bpl 0x5A), (16, 0x5A30, .bmi 0x5A), (16, 0x5A50, .bvc 0x5A),
    (16, 0x5A70, .bvs 0x5A), (16, 0x5A90, .bcc 0x5A), (16, 0x5AB0, .bcs 0x5A), (16, 0x5AD0, .bne 0x5A),
    (16, 0x5AF0, .beq 0x5A), (24, 0xC35A4C, .jmpAbs 0xC35A), (24, 0xC35A6C, .jmpInd 0xC35A),
    (24, 0xC35A20, .jsr 0xC35A), (8, 0x60, .rts), (8, 0x40, .rti), (16, 0x5AC1, .cmpIndX 0x5A),
    (16, 0x5AC5, .cmpZp 0x5A), (16, 0x5AC9, .cmpImm 0x5A), (24, 0xC35ACD, .cmpAbs 0xC35A),
    (16, 0x5AD1, .cmpIndY 0x5A), (16, 0x5AD5, .cmpZpX 0x5A), (24, 0xC35AD9, .cmpAbsY 0xC35A),
    (24, 0xC35ADD, .cmpAbsX 0xC35A), (16, 0x5AE0, .cpxImm 0x5A), (16, 0x5AE4, .cpxZp 0x5A)] = true := by decide

theorem test_decode_inert_2 : decodesAll [
    (24, 0xC35AEC, .cpxAbs 0xC35A), (16, 0x5AC0, .cpyImm 0x5A), (16, 0x5AC4, .cpyZp 0x5A),
    (24, 0xC35ACC, .cpyAbs 0xC35A), (16, 0x5A24, .bitZp 0x5A), (24, 0xC35A2C, .bitAbs 0xC35A)] = true := by decide

/-- 30_encoding.md R87: undefined bytes at the ends of the map. -/
theorem test_decode_undefined : decodesAll [(8, 0x02, .undefined 0x02), (8, 0xFF, .undefined 0xFF)] = true := by
  decide

theorem test_decode_refuses_no_opcode : decode Config.default [] = .error .noOpcode := rfl

theorem test_decode_refuses_missing_operand : decode Config.default [0xAD, 0x00] = .error (.missingOperand 0xAD) := rfl

/-! ## One step from the reset state -/

/-- The reset state with a stream. -/
def withStream (bs : List Byte) : State := { State.reset with stream := bs }

/-- The bytes `bs`, run alone from `start`, make `change` and leave PC at the stream's end. -/
def runs (bs : List Byte) (start change : State → State) : Bool :=
  match step (start (withStream bs)) with
  | .next t => decide (t = { change (start (withStream bs)) with pc := BitVec.ofNat 16 bs.length, phase := .ended })
  | _ => false

/-- The bytes `bs`, run alone from `start`, latch `f` and change nothing else. -/
def faults (bs : List Byte) (start : State → State) (f : Fault) : Bool :=
  match step (start (withStream bs)) with
  | .next t => decide (t = { start (withStream bs) with fault := some f })
  | _ => false

/-- LS2. -/
theorem test_lda_negative : runs [0xA9, 0x80] id (fun s => { s with a := 0x80, flags.n := true }) = true := by decide

/-- LS5. -/
theorem test_lda_zpx_no_wrap : runs [0xB5, 0xFF] (fun s => { s with x := 0xFF, mem := [(0x01FE, 0x33)] })
    (fun s => { s with a := 0x33 }) = true := by decide

/-- LS7. -/
theorem test_lda_absx_wraps : runs [0xBD, 0xFF, 0xFF] (fun s => { s with x := 0x01, mem := [(0x0000, 0x44)] })
    (fun s => { s with a := 0x44 }) = true := by decide

/-- LS8. -/
theorem test_lda_absy_faults : faults [0xB9, 0xF8, 0x1F] (fun s => { s with y := 0x10 })
    (.addressOutOfRange 0x2008) = true := by decide

/-- LS9. -/
theorem test_lda_absy_masked :
    runs [0xB9, 0xF8, 0x1F] (fun s => { s with y := 0x10, mem := [(0x0008, 0x66)], cfg.oorPolicy := .mask13 })
    (fun s => { s with a := 0x66 }) = true := by decide

/-- LS12. -/
theorem test_lda_indx_pointer_no_wrap :
    runs [0xA1, 0xFF] (fun s => { s with mem := [(0x0000, 0x03), (0x0100, 0x02), (0x0200, 0xAB), (0x0300, 0xCD)] })
    (fun s => { s with a := 0xAB, flags.n := true }) = true := by decide

/-- LS13. -/
theorem test_lda_indx_pointer_wraps :
    runs [0xA1, 0xFF] (fun s => { s with
      mem := [(0x0000, 0x03), (0x0100, 0x02), (0x0200, 0xAB), (0x0300, 0xCD)], cfg.ptrWrap := true })
    (fun s => { s with a := 0xCD, flags.n := true }) = true := by decide

/-- LS15. -/
theorem test_lda_indy_high_byte_wraps :
    runs [0xB1, 0x10] (fun s => { s with y := 0x01, mem := [(0x0000, 0x11), (0x0010, 0xFF), (0x0011, 0xFF)] })
    (fun s => { s with a := 0x11 }) = true := by decide

/-- LS16. -/
theorem test_lda_indy_faults : faults [0xB1, 0x10] (fun s => { s with mem := [(0x0011, 0x20)] })
    (.addressOutOfRange 0x2000) = true := by decide

/-- LS17. -/
theorem test_ldx_zpy : runs [0xB6, 0xF0] (fun s => { s with y := 0x20, mem := [(0x0110, 0x01)] })
    (fun s => { s with x := 0x01 }) = true := by decide

/-- LS20. -/
theorem test_ldy_absx : runs [0xBC, 0x00, 0x02] (fun s => { s with x := 0x02, mem := [(0x0202, 0xFE)] })
    (fun s => { s with y := 0xFE, flags.n := true }) = true := by decide

/-- LS22, with the cell of the written 0x00 gone. -/
theorem test_sta_zero_no_flag :
    runs [0x85, 0x10] (fun s => { s with flags.n := true, mem := [(0x0010, 0x55)] })
    (fun s => { s with mem := [] }) = true := by decide

/-- LS24. -/
theorem test_sta_abs_faults : faults [0x8D, 0x00, 0x20] (fun s => { s with a := 0x12 })
    (.addressOutOfRange 0x2000) = true := by decide

/-- LS25. -/
theorem test_sta_abs_masked : runs [0x8D, 0x00, 0x20] (fun s => { s with a := 0x12, cfg.oorPolicy := .mask13 })
    (fun s => { s with mem := [(0x0000, 0x12)] }) = true := by decide

/-- LS26. -/
theorem test_sta_indy : runs [0x91, 0x10] (fun s => { s with a := 0x42, y := 0x01, mem := [(0x0010, 0xFF)] })
    (fun s => { s with mem := [(0x0010, 0xFF), (0x0100, 0x42)] }) = true := by decide

/-- LS27. -/
theorem test_stx_zpy : runs [0x96, 0xFE] (fun s => { s with x := 0x7E, y := 0x02 })
    (fun s => { s with mem := [(0x0100, 0x7E)] }) = true := by decide

/-- LS28. -/
theorem test_sty_abs : runs [0x8C, 0x34, 0x12] (fun s => { s with y := 0xC3 })
    (fun s => { s with mem := [(0x1234, 0xC3)] }) = true := by decide

/-- LA1. -/
theorem test_ora : runs [0x09, 0x80] id (fun s => { s with a := 0x80, flags.n := true }) = true := by decide

/-- LA3. -/
theorem test_and : runs [0x29, 0x0F] (fun s => { s with a := 0xF0 })
    (fun s => { s with a := 0x00, flags.z := true }) = true := by decide

/-- LA6. -/
theorem test_eor : runs [0x45, 0x20] (fun s => { s with a := 0x3C, mem := [(0x0020, 0xC3)] })
    (fun s => { s with a := 0xFF, flags.n := true }) = true := by decide

/-- LA7 (S3). -/
theorem test_adc_source_example : runs [0x69, 0x50] (fun s => { s with a := 0x50 })
    (fun s => { s with a := 0xA0, flags.n := true, flags.v := true, flags.c := true }) = true := by decide

/-- LA15. -/
theorem test_adc_ignores_carry : runs [0x69, 0x00] (fun s => { s with flags.c := true })
    (fun s => { s with flags.z := true, flags.c := false }) = true := by decide

/-- LA28. -/
theorem test_adc_absx_faults : faults [0x7D, 0xFE, 0x1F] (fun s => { s with a := 0x11, x := 0x03 })
    (.addressOutOfRange 0x2001) = true := by decide

/-- LA19. -/
theorem test_sbc_below_zero : runs [0xE9, 0x01] id
    (fun s => { s with a := 0xFF, flags.n := true, flags.v := true }) = true := by decide

/-- LA24. -/
theorem test_sbc_carry : runs [0xE9, 0x91] (fun s => { s with a := 0x10 })
    (fun s => { s with a := 0x7F, flags.c := true }) = true := by decide

/-- SI1. -/
theorem test_asl_acc : runs [0x0A] (fun s => { s with a := 0x81 })
    (fun s => { s with a := 0x02, flags.c := true }) = true := by decide

/-- SI4. -/
theorem test_asl_zp : runs [0x06, 0x10] (fun s => { s with mem := [(0x0010, 0xC0)] })
    (fun s => { s with flags.n := true, flags.c := true, mem := [(0x0010, 0x80)] }) = true := by decide

/-- SI7. -/
theorem test_lsr_acc : runs [0x4A] (fun s => { s with a := 0x02, flags.n := true })
    (fun s => { s with a := 0x01, flags.n := false }) = true := by decide

/-- SI9. -/
theorem test_rol_acc : runs [0x2A] (fun s => { s with a := 0x40, flags.c := true })
    (fun s => { s with a := 0x81, flags.n := true, flags.c := false }) = true := by decide

/-- SI17. -/
theorem test_rol_last_byte :
    runs [0x3E, 0xFE, 0x1F] (fun s => { s with x := 0x01, flags.c := true, mem := [(0x1FFF, 0x81)] })
    (fun s => { s with mem := [(0x1FFF, 0x03)] }) = true := by decide

/-- SI18. -/
theorem test_rol_faults : faults [0x3E, 0xFE, 0x1F] (fun s => { s with x := 0x02, flags.c := true })
    (.addressOutOfRange 0x2000) = true := by decide

/-- SI15. -/
theorem test_ror_acc : runs [0x6A] (fun s => { s with a := 0x01, flags.c := true })
    (fun s => { s with a := 0x80, flags.n := true }) = true := by decide

/-- SI19. -/
theorem test_inc : runs [0xE6, 0x10] (fun s => { s with flags.c := true, mem := [(0x0010, 0xFF)] })
    (fun s => { s with flags.z := true, mem := [] }) = true := by decide

/-- SI22. -/
theorem test_dec : runs [0xC6, 0x05] id
    (fun s => { s with flags.n := true, mem := [(0x0005, 0xFF)] }) = true := by decide

/-- SI24. -/
theorem test_inx : runs [0xE8] (fun s => { s with x := 0xFF })
    (fun s => { s with x := 0x00, flags.z := true }) = true := by decide

/-- SI26. -/
theorem test_iny : runs [0xC8] (fun s => { s with y := 0xFF })
    (fun s => { s with y := 0x00, flags.z := true }) = true := by decide

/-- SI27. -/
theorem test_dex : runs [0xCA] id (fun s => { s with x := 0xFF, flags.n := true }) = true := by decide

/-- SI30. -/
theorem test_dey : runs [0x88] id (fun s => { s with y := 0xFF, flags.n := true }) = true := by decide

/-- TS1. -/
theorem test_tax : runs [0xAA] (fun s => { s with a := 0x80 })
    (fun s => { s with x := 0x80, flags.n := true }) = true := by decide

/-- TS3. -/
theorem test_txa : runs [0x8A] (fun s => { s with x := 0x11 }) (fun s => { s with a := 0x11 }) = true := by decide

/-- TS4. -/
theorem test_tay : runs [0xA8] id (fun s => { s with flags.z := true }) = true := by decide

/-- TS5. -/
theorem test_tya : runs [0x98] (fun s => { s with y := 0x80 })
    (fun s => { s with a := 0x80, flags.n := true }) = true := by decide

/-- TS6. -/
theorem test_tsx : runs [0xBA] id (fun s => { s with x := 0xFF }) = true := by decide

/-- TS8. -/
theorem test_txs_zext : runs [0x9A] (fun s => { s with x := 0x80 }) (fun s => { s with sp := 0x0080 }) = true := by
  decide

/-- TS9. -/
theorem test_txs_page1 : runs [0x9A] (fun s => { s with x := 0x80, cfg.txsMode := .page1 })
    (fun s => { s with sp := 0x0180 }) = true := by decide

/-- TS11. -/
theorem test_pha_wraps : runs [0x48] (fun s => { s with a := 0x5A, sp := 0x0000 })
    (fun s => { s with sp := 0xFFFF, mem := [(0x0000, 0x5A)] }) = true := by decide

/-- TS12. -/
theorem test_pha_faults : faults [0x48] (fun s => { s with a := 0x5A, sp := 0xFFFF })
    (.addressOutOfRange 0xFFFF) = true := by decide

/-- TS15. -/
theorem test_pla : runs [0x68] (fun s => { s with sp := 0x01FE, mem := [(0x01FF, 0x80)] })
    (fun s => { s with a := 0x80, sp := 0x01FF }) = true := by decide

/-- TS16. -/
theorem test_pla_sets_nz :
    runs [0x68] (fun s => { s with sp := 0x01FE, mem := [(0x01FF, 0x80)], cfg.plaSetsNZ := true })
    (fun s => { s with a := 0x80, sp := 0x01FF, flags.n := true }) = true := by decide

/-- TS18. -/
theorem test_php : runs [0x08] (fun s => { s with flags := ⟨true, true, true, true, true, true, true⟩ })
    (fun s => { s with sp := 0x01FE, mem := [(0x01FF, 0xDF)] }) = true := by decide

/-- TS21. -/
theorem test_plp_exchanges : runs [0x28] (fun s => { s with sp := 0x01FE, mem := [(0x01FF, 0x40)] })
    (fun s => { s with sp := 0x01FF, flags.n := true }) = true := by decide

/-- TS25. -/
theorem test_plp_sets_b : runs [0x28] (fun s => { s with sp := 0x01FE, mem := [(0x01FF, 0x10)] })
    (fun s => { s with sp := 0x01FF, flags.b := true }) = true := by decide

/-- TS26. -/
theorem test_clc : runs [0x18] (fun s => { s with flags.c := true }) (fun s => { s with flags.c := false }) = true := by
  decide

/-- TS27. -/
theorem test_sec : runs [0x38] id (fun s => { s with flags.c := true }) = true := by decide

/-- TS28. -/
theorem test_cli : runs [0x58] (fun s => { s with flags.i := true }) (fun s => { s with flags.i := false }) = true := by
  decide

/-- TS29. -/
theorem test_sei : runs [0x78] id (fun s => { s with flags.i := true }) = true := by decide

/-- TS30. -/
theorem test_cld : runs [0xD8] (fun s => { s with flags.d := true }) (fun s => { s with flags.d := false }) = true := by
  decide

/-- TS31. -/
theorem test_sed : runs [0xF8] id (fun s => { s with flags.d := true }) = true := by decide

/-- TS32. -/
theorem test_clv : runs [0xB8] (fun s => { s with flags.v := true }) (fun s => { s with flags.v := false }) = true := by
  decide

/-- IN1 to IN9: BRK and the branches, with every flag 0 and with every flag 1. -/
theorem test_branches_inert :
    ([[0x00], [0x10, 0xFE], [0x30, 0x10], [0x50, 0x00], [0x70, 0x80], [0x90, 0x04], [0xB0, 0x04], [0xD0, 0xFD],
      [0xF0, 0x02]] : List (List Byte)).all (fun bs => runs bs id id
        && runs bs (fun s => { s with flags := ⟨true, true, true, true, true, true, true⟩ }) id) = true := by decide

/-- IN10 to IN14: the jumps and returns. -/
theorem test_jumps_inert :
    ([[0x4C, 0x00, 0x00], [0x6C, 0x00, 0x30], [0x20, 0x34, 0x12], [0x60], [0x40]] : List (List Byte)).all
      (fun bs => runs bs id id) = true := by decide

/-- IN15 to IN19: the compares and BIT, with the operands of the vectors. -/
theorem test_compares_inert :
    ([[0xDD, 0xFF, 0xFF], [0xC9, 0x00], [0xEC, 0x00, 0x30], [0xC0, 0x03], [0x24, 0x10]] : List (List Byte)).all
      (fun bs => runs bs (fun s => { s with x := 0x01, mem := [(0x0010, 0xC0)] }) id) = true := by decide

/-- IN20, IN21. -/
theorem test_undefined_inert :
    ([[0x02], [0xEA]] : List (List Byte)).all (fun bs => runs bs (fun s => { s with a := 0x12 }) id) = true := by decide

/-- IN23. -/
theorem test_truncated_lda_faults : faults [0xAD, 0x00] id (.fetchOutOfRange 0x0000) = true := by decide

/-- IN24. -/
theorem test_truncated_bne_faults : faults [0xD0] id (.fetchOutOfRange 0x0000) = true := by decide

/-- R302, R303: the step after a fault answers the latched fault. -/
theorem test_step_after_fault_stops :
    step { withStream [0xE8] with fault := some (.addressOutOfRange 0x2000) } = .fault (.addressOutOfRange 0x2000) :=
  rfl

/-- R34: a state that has not been reset is refused, whatever its FAULT holds. -/
theorem test_step_before_reset_refused :
    step { withStream [0xE8] with phase := .preReset, fault := some (.addressOutOfRange 0x2000) } = .refused .notReset
    ∧ step { withStream [0xE8] with phase := .preReset } = .refused .notReset := ⟨rfl, rfl⟩

/-- R336: mid-stream, PC moves on by the length and the loop goes on (P1, first step). -/
theorem test_loop_goes_on : step (withStream [0xA9, 0x05, 0xA9, 0xFF])
    = .next { withStream [0xA9, 0x05, 0xA9, 0xFF] with a := 0x05, pc := 0x0002 } := rfl

/-- A table word placed at the reset state is the next instruction to run, and bytes above its bits are 0 (hand
calculation: INX, then BRK bytes). -/
theorem test_withFetchWord_runs : step (State.reset.withFetchWord 8 0xE8)
    = .next { withStream [0xE8, 0x00, 0x00] with x := 0x01, pc := 0x0001 } := rfl

/-- Unpack of Pack exchanges N and V and keeps the rest (section L2.6, the single-flag cases of N and V). -/
theorem test_pack_unpack : Flags.unpack (Flags.pack { Flags.clear with n := true }) = { Flags.clear with v := true }
    ∧ Flags.unpack (Flags.pack { Flags.clear with v := true }) = { Flags.clear with n := true } := by decide

/-! ## Witnesses: the hypotheses of every statement that has some, at concrete values -/

/-- DecodeOfEncode, at both ends of the operand range and on an undefined byte. -/
theorem witness_DecodeOfEncode : WellFormed Config.default (.ldaAbsX 0xFFFF) = true
    ∧ WellFormed Config.default (.bne 0x00) = true ∧ WellFormed Config.default (.undefined 0xEA) = true := by decide

theorem witness_EncodeOfDecode : decode Config.default [0xB1, 0xFF, 0x00] = .ok (.ldaIndY 0xFF, [0x00]) := rfl

/-- The two operand values of S1. -/
theorem witness_LengthIsSetByOpcode : decode Config.default [0xAD, 0x00, 0x00] = .ok (.ldaAbs 0x0000, [])
    ∧ decode Config.default [0xAD, 0xFF, 0xFF] = .ok (.ldaAbs 0xFFFF, []) := ⟨rfl, rfl⟩

theorem witness_UndefinedBytesAreOneByteNoOps : (0x02 : Byte) ∈ Claims.undefinedBytes
    ∧ (0xFF : Byte) ∈ Claims.undefinedBytes := by decide

theorem witness_ExcludedOpcodesAreUndefined :
    (0xA9 : Byte) ∈ ({ Config.default with implExcluded := [0xA9] } : Config).implExcluded := by decide

theorem witness_LaunchIsResetWithImage : State.reset.cfg.memInit = [] := rfl

/-- The reset state with OOR_POLICY = Mask13. -/
def masked : State := { State.reset with cfg.oorPolicy := .mask13 }

/-- The edges of the address space under both policies: TranslateFollowsPolicy, and every clause on `placeOf`. -/
theorem witness_TranslateFollowsPolicy : Claims.placeOf State.reset 0x0000 = some 0x0000
    ∧ Claims.placeOf State.reset 0x1FFF = some 0x1FFF ∧ Claims.placeOf State.reset 0x2000 = none
    ∧ Claims.placeOf State.reset 0xFFFF = none ∧ Claims.placeOf masked 0x1FFF = some 0x1FFF
    ∧ Claims.placeOf masked 0x2000 = some 0x0000 ∧ Claims.placeOf masked 0xFFFF = some 0x1FFF := by decide

theorem witness_MemoryReadsLatestWrite : Memory.wf [(0x0000, 0x11), (0x1FFF, 0x22)] ∧ 0x1FFF < 8192
    ∧ (0x0000 : Nat) ≠ 0x1FFF := by decide

/-- An operand of each kind reads, at the last byte of MEM in memory: the operand clauses of LdaLoadsAccumulator,
LdxLoadsX, LdyLoadsY, LogicalInstructions, AdcAddsWithoutCarryIn, SbcSubtractsWithoutBorrowIn. -/
theorem witness_Reads : Claims.Reads State.reset (.imm 0xFF) 0xFF
    ∧ Claims.Reads { State.reset with mem := [(0x1FFF, 0x80)] } (.mem (.abs 0x1FFF)) 0x80
    ∧ Claims.Reads masked (.mem (.absX 0xFFFF)) 0x00 :=
  ⟨rfl, ⟨0x1FFF, 0x1FFF, rfl, rfl, rfl⟩, ⟨0xFFFF, 0x1FFF, rfl, rfl, rfl⟩⟩

/-- An effective address inside MEM and one outside it, in each memory mode that can leave it: the address clauses of
the same statements and of StoreInstructions, AslShiftsLeft, LsrShiftsRight, RolRotatesLeftThroughCarry,
RorRotatesRightThroughCarry, IncIncrementsMemory, DecDecrementsMemory. -/
theorem witness_effective_addresses :
    State.reset.ea (.zp 0xFF) = .ok 0x00FF ∧ Claims.placeOf State.reset 0x00FF = some 0x00FF
    ∧ State.reset.ea (.abs 0x1FFF) = .ok 0x1FFF ∧ State.reset.ea (.abs 0x2000) = .ok 0x2000
    ∧ ({ State.reset with x := 0x01 } : State).ea (.absX 0x1FFF) = .ok 0x2000
    ∧ ({ State.reset with mem := [(0x0011, 0x20)] } : State).ea (.indY 0x10) = .ok 0x2000
    ∧ ({ State.reset with mem := [(0x0011, 0x20)] } : State).ea (.indX 0x10) = .ok 0x2000
    ∧ Claims.placeOf State.reset 0x2000 = none := ⟨rfl, rfl, rfl, rfl, rfl, rfl, rfl, rfl⟩

/-- The premises inside `Claims.EncodedAs`: an opcode in IMPL_SET, and a cut shorter than the operand bytes. -/
theorem witness_EncodedAs : (0xAD : Byte) ∉ Config.default.implExcluded ∧ 1 < (Claims.bytesOf 0x1FFF).length := by
  decide

/-- A stack pointer inside MEM and one outside it, for a push and for a pull: PhaPushesAccumulator, PhpPushesStatus,
PlaPullsAccumulator, PlpPullsStatus. -/
theorem witness_stack_places : Claims.placeOf State.reset State.reset.sp = some 0x01FF
    ∧ Claims.placeOf { State.reset with sp := 0xFFFF } 0xFFFF = none
    ∧ Claims.placeOf { State.reset with sp := 0xFFFF } (BitVec.ofNat 16 ((0xFFFF : Word).toNat + 1)) = some 0x0000
    ∧ Claims.placeOf { State.reset with sp := 0x1FFF } (BitVec.ofNat 16 ((0x1FFF : Word).toNat + 1)) = none := by
  decide

/-- SP at reset and at both ends of MEM: PhpThenPlpExchangesSignAndOverflow, PhaThenPlaRestoresAccumulator. -/
theorem witness_stack_round_trips : State.reset.sp.toNat < 8192 ∧ (0x0000 : Word).toNat < 8192
    ∧ (0x1FFF : Word).toNat < 8192 ∧ State.reset.cfg.plaSetsNZ = false := by decide

/-- An instruction that latches a fault: OnlyMemoryInstructionsFault. -/
theorem witness_OnlyMemoryInstructionsFault :
    exec (.staAbs 0x2000) State.reset = .next { State.reset with fault := some (.addressOutOfRange 0x2000) }
    ∧ some (Fault.addressOutOfRange 0x2000) ≠ State.reset.fault := ⟨rfl, nofun⟩

/-- A next state: NoInstructionWritesPcOrStream, and RegisterWriters with each register changed in turn. -/
theorem witness_RegisterWriters :
    exec (.ldaImm 0x01) State.reset = .next { State.reset with a := 0x01 }
    ∧ exec (.ldxImm 0x01) State.reset = .next { State.reset with x := 0x01 }
    ∧ exec (.ldyImm 0x01) State.reset = .next { State.reset with y := 0x01 }
    ∧ exec .txs State.reset = .next { State.reset with sp := 0x0000 }
    ∧ exec (.aslZp 0x10) { State.reset with mem := [(0x0010, 0x01)] }
        = .next { State.reset with mem := [(0x0010, 0x02)] } := ⟨rfl, rfl, rfl, rfl, rfl⟩

/-- FlagWriters with each flag changed in turn. -/
theorem witness_FlagWriters :
    exec (.ldxImm 0x80) State.reset = .next { State.reset with x := 0x80, flags.n := true }
    ∧ exec (.ldxImm 0x00) State.reset = .next { State.reset with flags.z := true }
    ∧ exec .clv { State.reset with flags.v := true } = .next State.reset
    ∧ exec .plp { State.reset with sp := 0x01FE, mem := [(0x01FF, 0x10)] }
        = .next { State.reset with mem := [(0x01FF, 0x10)], flags.b := true }
    ∧ exec .sed State.reset = .next { State.reset with flags.d := true }
    ∧ exec .sei State.reset = .next { State.reset with flags.i := true }
    ∧ exec .sec State.reset = .next { State.reset with flags.c := true } := ⟨rfl, rfl, rfl, rfl, rfl, rfl, rfl⟩

/-- MemoryWriters: a store inside MEM, one at its last byte and one outside it, a push, a mnemonic that writes no
memory, and a shift of A. -/
theorem witness_MemoryWriters :
    exec (.staZp 0x10) { State.reset with a := 0x01 } = .next { State.reset with a := 0x01, mem := [(0x0010, 0x01)] }
    ∧ Claims.storeAddress State.reset (.staZp 0x10) = some 0x0010
    ∧ Claims.storeAddress State.reset (.incAbs 0x1FFF) = some 0x1FFF ∧ Claims.placeOf State.reset 0x1FFF = some 0x1FFF
    ∧ Claims.storeAddress State.reset (.staAbs 0x2000) = some 0x2000 ∧ Claims.placeOf State.reset 0x2000 = none
    ∧ Claims.storeAddress State.reset .pha = some 0x01FF
    ∧ exec (.ldaImm 0x01) State.reset = .next { State.reset with a := 0x01 }
    ∧ Claims.storeAddress State.reset (.ldaImm 0x01) = none
    ∧ (Instr.ldaImm 0x01).mnemonic ∉ [Mnemonic.sta, .stx, .sty, .asl, .lsr, .rol, .ror, .inc, .dec, .pha, .php]
    ∧ exec .aslAcc { State.reset with a := 0x01 } = .next { State.reset with a := 0x02 }
    ∧ Instr.aslAcc ∈ [Instr.aslAcc, .lsrAcc, .rolAcc, .rorAcc] :=
  ⟨rfl, rfl, rfl, rfl, rfl, rfl, rfl, rfl, rfl, by decide, rfl, by decide⟩

/-- FlagsDoNotSteerInstructions: ROL, with other flags that agree on C, and ADC, whose D and C may differ. -/
theorem witness_FlagsDoNotSteerInstructions :
    exec .rolAcc { State.reset with a := 0x01 } = .next { State.reset with a := 0x02 }
    ∧ ({ Flags.clear with d := true } : Flags).c = State.reset.flags.c
    ∧ exec (.adcImm 0x01) State.reset = .next { State.reset with a := 0x01 }
    ∧ (Instr.adcImm 0x01).mnemonic ∉ [Mnemonic.rol, .ror] ∧ Instr.adcImm 0x01 ≠ .php :=
  ⟨rfl, rfl, rfl, by decide, by decide⟩

/-- StepRunsDecodedInstruction: mid-stream, at the stream's last instruction, and an instruction that faults. -/
theorem witness_StepRunsDecodedInstruction :
    Claims.Runs { withStream [0xE8, 0xAD, 0x00, 0x20] with pc := 0x0001 }
    ∧ decode Config.default (List.drop 1 [0xE8, 0xAD, 0x00, 0x20]) = .ok (.ldaAbs 0x2000, [])
    ∧ decode Config.default [0xE8, 0xAD, 0x00, 0x20] = .ok (.inx, [0xAD, 0x00, 0x20])
    ∧ exec .inx (withStream [0xE8, 0xAD, 0x00, 0x20]) = .next { withStream [0xE8, 0xAD, 0x00, 0x20] with x := 0x01 }
    ∧ exec (.ldaAbs 0x2000) State.reset = .next { State.reset with fault := some (.addressOutOfRange 0x2000) } :=
  ⟨⟨rfl, rfl⟩, rfl, rfl, rfl, rfl⟩

/-- TruncatedInstructionFaults: PC just past the stream, an operand one byte short, and an instruction that just
fits. -/
theorem witness_TruncatedInstructionFaults :
    Claims.Runs { withStream [0xE8] with pc := 0x0001 } ∧ (withStream [0xE8]).stream ≠ []
    ∧ ([0xE8] : List Byte).length ≤ (0x0001 : Word).toNat
    ∧ (withStream [0xAD, 0x00]).stream[(0x0000 : Word).toNat]? = some 0xAD
    ∧ (withStream [0xAD, 0x00]).stream.length < 0 + (formatOf Config.default 0xAD).length
    ∧ 0 + (formatOf Config.default 0xA9).length ≤ (withStream [0xA9, 0x05]).stream.length :=
  ⟨⟨rfl, rfl⟩, by decide, by decide, rfl, by decide, by decide⟩

theorem witness_FaultedCoreTakesNoStep :
    ({ State.reset with fault := some (.fetchOutOfRange 0x0000) } : State).phase = .running
    ∧ ({ State.reset with fault := some (.fetchOutOfRange 0x0000) } : State).fault
      = some (.fetchOutOfRange 0x0000) := ⟨rfl, rfl⟩

/-- StepBeforeResetIsRefused, with FAULT empty and with a record in it. -/
theorem witness_StepBeforeResetIsRefused : ({ State.reset with phase := .preReset } : State).phase = .preReset
    ∧ ({ State.reset with phase := .preReset, fault := some (.fetchOutOfRange 0x0000) } : State).phase = .preReset :=
  ⟨rfl, rfl⟩

/-- RunEndIsFinal: the empty stream, and an ended run with and without a record in FAULT. -/
theorem witness_RunEndIsFinal : State.reset.fault = none ∧ State.reset.phase = .running ∧ State.reset.stream = []
    ∧ ({ State.reset with phase := .ended } : State).phase = .ended
    ∧ ({ State.reset with phase := .ended } : State).fault = none
    ∧ ({ State.reset with phase := .ended, fault := some (.fetchOutOfRange 0x0000) } : State).fault
      = some (.fetchOutOfRange 0x0000) := ⟨rfl, rfl, rfl, rfl, rfl, rfl⟩

/-- A launch image with cells at both ends of MEM, and a stream of the greatest length. -/
theorem witness_ResetHoldsInvariant : Memory.wf [(0x0000, 0xFF), (0x1FFF, 0x01)]
    ∧ (List.replicate 65536 (0xEA : Byte)).length ≤ 65536 := ⟨by decide, Nat.le_of_eq List.length_replicate⟩

/-- A step mid-stream, a step into a fetch fault and a step into an address fault, each from a state of the
invariant. -/
theorem witness_StepKeepsInvariant :
    ((withStream [0xE8, 0xAD]).Inv ∧ step (withStream [0xE8, 0xAD])
        = .next { withStream [0xE8, 0xAD] with x := 0x01, pc := 0x0001 })
    ∧ (({ withStream [0xE8, 0xAD] with pc := 0x0001 } : State).Inv
      ∧ step { withStream [0xE8, 0xAD] with pc := 0x0001 }
        = .next { withStream [0xE8, 0xAD] with pc := 0x0001, fault := some (.fetchOutOfRange 0x0001) })
    ∧ ((withStream [0xAD, 0x00, 0x20]).Inv ∧ step (withStream [0xAD, 0x00, 0x20])
        = .next { withStream [0xAD, 0x00, 0x20] with fault := some (.addressOutOfRange 0x2000) }) :=
  ⟨⟨⟨by decide, by decide, fun _ _ => by decide, trivial⟩, rfl⟩,
   ⟨⟨by decide, by decide, fun _ _ => by decide, trivial⟩, rfl⟩,
   ⟨⟨by decide, by decide, fun _ _ => by decide, trivial⟩, rfl⟩⟩

/-- EveryRunEnds: the empty stream and the greatest length. -/
theorem witness_EveryRunEnds : ([] : List Byte).length ≤ 65536
    ∧ (List.replicate 65536 (0xEA : Byte)).length ≤ 65536 := ⟨by decide, Nat.le_of_eq List.length_replicate⟩

end Sys2Proof.Tests
end

section
/-! SUPPORT. Every instruction is all or nothing (00_scope.md R12): for each shared operation, and for `exec`, the
answer is a next state in which either only what an instruction may write has changed, or only FAULT. -/

namespace Sys2Proof.Machine

/-- `t` agrees with `s` on the state that a completed instruction never writes: FAULT, PC, the stream, the parameters
and the phase. -/
structure SameControl (s t : State) : Prop where
  fault : t.fault = s.fault
  pc : t.pc = s.pc
  stream : t.stream = s.stream
  cfg : t.cfg = s.cfg
  phase : t.phase = s.phase

/-- The instruction of outcome `r` completes, or takes a grounded address fault and changes nothing else. -/
def AllOrNothing (s : State) (r : Result) : Prop := ∃ t, r = .next t ∧ (SameControl s t ∨ Faulted s t)

variable {s : State}

theorem next_allOrNothing {t : State} (h : SameControl s t) : AllOrNothing s (.next t) := ⟨t, rfl, .inl h⟩

/-- `commit` always answers a next state, so an inversion of that answer is enough. -/
theorem commit_allOrNothing {r : Except Fault State}
    (h : ∀ t, commit s r = .next t → SameControl s t ∨ Faulted s t) : AllOrNothing s (commit s r) := by
  cases r with
  | ok t => exact ⟨t, rfl, h t rfl⟩
  | error f => exact ⟨_, rfl, h _ rfl⟩

theorem load_allOrNothing {set : State → Byte → State} {src : Source} (hset : ∀ v, SameControl s (set s v)) :
    AllOrNothing s (load set src s) := by
  refine commit_allOrNothing fun t h => (load_next h).imp_left ?_
  rintro ⟨v, -, rfl⟩
  obtain ⟨hf, hp, hs, hc, hph⟩ := hset v
  exact ⟨hf, hp, hs, hc, hph⟩

theorem store_allOrNothing {v : Byte} {m : MemMode} : AllOrNothing s (store v m s) := by
  refine commit_allOrNothing fun t h => (store_next h).imp_left ?_
  rintro ⟨a, k, -, -, rfl⟩
  exact ⟨rfl, rfl, rfl, rfl, rfl⟩

theorem logical_allOrNothing {f : Byte → Byte → Byte} {src : Source} : AllOrNothing s (logical f src s) := by
  refine commit_allOrNothing fun t h => (logical_next h).imp_left ?_
  rintro ⟨m, -, rfl⟩
  exact ⟨rfl, rfl, rfl, rfl, rfl⟩

theorem arithmetic_allOrNothing {f : Int → Int → Int} {src : Source} : AllOrNothing s (arithmetic f src s) := by
  refine commit_allOrNothing fun t h => (arithmetic_next h).imp_left ?_
  rintro ⟨m, -, rfl⟩
  exact ⟨rfl, rfl, rfl, rfl, rfl⟩

/-- The shifts, rotates, INC and DEC. -/
theorem commit_rmw_allOrNothing {tg : Target} {f : Byte → Byte} {flags : Byte → Byte → Flags} :
    AllOrNothing s (commit s (s.rmw tg f flags)) := by
  refine commit_allOrNothing fun t h => ?_
  rcases commit_rmw_next h with ⟨-, rfl⟩ | ⟨m, a, k, -, -, -, rfl⟩ | h
  · exact .inl ⟨rfl, rfl, rfl, rfl, rfl⟩
  · exact .inl ⟨rfl, rfl, rfl, rfl, rfl⟩
  · exact .inr h

theorem push_allOrNothing {v : Byte} : AllOrNothing s (commit s (s.push v)) := by
  refine commit_allOrNothing fun t h => (push_next h).imp_left ?_
  rintro ⟨k, -, rfl⟩
  exact ⟨rfl, rfl, rfl, rfl, rfl⟩

theorem pull_allOrNothing {g : Byte × State → State}
    (hg : ∀ v, SameControl s (g (v, s.setSp (s.sp + 1)))) : AllOrNothing s (commit s (s.pull.map g)) := by
  refine commit_allOrNothing fun t h => (pull_next h).imp_left ?_
  rintro ⟨k, -, rfl⟩
  exact hg _

theorem execTxs_allOrNothing : AllOrNothing s (execTxs s) := by
  unfold execTxs
  split
  · exact next_allOrNothing ⟨rfl, rfl, rfl, rfl, rfl⟩
  · exact next_allOrNothing ⟨rfl, rfl, rfl, rfl, rfl⟩

/-- The dispatch by shared operation. The last group touches no memory and so always completes: the immediate and
accumulator forms are in it. -/
theorem exec_allOrNothing (i : Instr) (s : State) : AllOrNothing s (exec i s) := by
  cases i with
  | ldaZp _ | ldaZpX _ | ldaAbs _ | ldaAbsX _ | ldaAbsY _ | ldaIndX _ | ldaIndY _ | ldxZp _ | ldxZpY _
  | ldxAbs _ | ldxAbsY _ | ldyZp _ | ldyZpX _ | ldyAbs _ | ldyAbsX _ =>
    exact load_allOrNothing fun _ => ⟨rfl, rfl, rfl, rfl, rfl⟩
  | staZp _ | staZpX _ | staAbs _ | staAbsX _ | staAbsY _ | staIndX _ | staIndY _ | stxZp _ | stxZpY _
  | stxAbs _ | styZp _ | styZpX _ | styAbs _ =>
    exact store_allOrNothing
  | oraZp _ | oraZpX _ | oraAbs _ | oraAbsX _ | oraAbsY _ | oraIndX _ | oraIndY _ | andZp _ | andZpX _
  | andAbs _ | andAbsX _ | andAbsY _ | andIndX _ | andIndY _ | eorZp _ | eorZpX _ | eorAbs _ | eorAbsX _
  | eorAbsY _ | eorIndX _ | eorIndY _ =>
    exact logical_allOrNothing
  | adcZp _ | adcZpX _ | adcAbs _ | adcAbsX _ | adcAbsY _ | adcIndX _ | adcIndY _ | sbcZp _ | sbcZpX _
  | sbcAbs _ | sbcAbsX _ | sbcAbsY _ | sbcIndX _ | sbcIndY _ =>
    exact arithmetic_allOrNothing
  | aslZp _ | aslZpX _ | aslAbs _ | aslAbsX _ | lsrZp _ | lsrZpX _ | lsrAbs _ | lsrAbsX _ | rolZp _ | rolZpX _
  | rolAbs _ | rolAbsX _ | rorZp _ | rorZpX _ | rorAbs _ | rorAbsX _ | incZp _ | incZpX _ | incAbs _
  | incAbsX _ | decZp _ | decZpX _ | decAbs _ | decAbsX _ =>
    exact commit_rmw_allOrNothing
  | pha | php =>
    exact push_allOrNothing
  | pla | plp =>
    exact pull_allOrNothing fun _ => ⟨rfl, rfl, rfl, rfl, rfl⟩
  | txs =>
    exact execTxs_allOrNothing
  | ldaImm _ | ldxImm _ | ldyImm _ | oraImm _ | andImm _ | eorImm _ | adcImm _ | sbcImm _ | aslAcc | lsrAcc
  | rolAcc | rorAcc | inx | iny | dex | dey | tax | txa | tay | tya | tsx | clc | sec | cli | sei | cld | sed
  | clv | brk | bpl _ | bmi _ | bvc _ | bvs _ | bcc _ | bcs _ | bne _ | beq _ | jmpAbs _ | jmpInd _ | jsr _
  | rts | rti | cmpImm _ | cmpZp _ | cmpZpX _ | cmpAbs _ | cmpAbsX _ | cmpAbsY _ | cmpIndX _ | cmpIndY _
  | cpxImm _ | cpxZp _ | cpxAbs _ | cpyImm _ | cpyZp _ | cpyAbs _ | bitZp _ | bitAbs _ | undefined _ =>
    exact next_allOrNothing ⟨rfl, rfl, rfl, rfl, rfl⟩

/-- Settles O46: a completed instruction keeps FAULT, and a faulted one latches a grounded address record alone. -/
theorem everyInstructionIsAllOrNothing : Obligations.EveryInstructionIsAllOrNothing := by
  intro i s
  obtain ⟨t, ht, hsame | ⟨a, ⟨hout, hpolicy⟩, hlatch⟩⟩ := exec_allOrNothing i s
  · exact ⟨t, ht, .inl hsame.fault⟩
  · exact ⟨t, ht, .inr ⟨a, hlatch, hout, hpolicy⟩⟩

end Sys2Proof.Machine
end

section
/-! SUPPORT. What an instruction writes: a table by mnemonic of the registers and flags (10_state.md R22 to R28), which
`exec` keeps to, with at most one byte of MEM beside them. -/

namespace Sys2Proof.Machine

/-- The registers and flags an instruction can write; N and Z are always written together. -/
inductive Piece where
  | a | x | y | sp | nz | v | b | d | i | c

/-- `t` holds in the piece what `s` holds. -/
def Piece.Kept (s t : State) : Piece → Prop
  | .a => t.a = s.a
  | .x => t.x = s.x
  | .y => t.y = s.y
  | .sp => t.sp = s.sp
  | .nz => t.flags.n = s.flags.n ∧ t.flags.z = s.flags.z
  | .v => t.flags.v = s.flags.v
  | .b => t.flags.b = s.flags.b
  | .d => t.flags.d = s.flags.d
  | .i => t.flags.i = s.flags.i
  | .c => t.flags.c = s.flags.c

/-- MEM is as before, or has one byte inside it written. -/
def StoresAtMostOneByte (s t : State) : Prop :=
  t.mem = s.mem ∨ ∃ k v, k < memSize ∧ t.mem = s.mem.write k v

/-- `t` differs from `s` in no piece but those of `w`, and in at most one byte of MEM. -/
structure WritesOnly (w : List Piece) (s t : State) : Prop where
  kept : ∀ p, p ∉ w → p.Kept s t
  mem : StoresAtMostOneByte s t

/-- The writer table: the pieces a mnemonic writes in its memory forms. PLA writes N and Z by PLA_SETS_NZ. -/
def rowWrites (cfg : Config) : Mnemonic → List Piece
  | .lda | .ora | .and | .eor | .txa | .tya => [.a, .nz]
  | .ldx | .inx | .dex | .tax => [.x, .nz]
  | .ldy | .iny | .dey | .tay => [.y, .nz]
  | .adc | .sbc => [.a, .nz, .v, .c]
  | .asl | .lsr | .rol | .ror => [.nz, .c]
  | .inc | .dec => [.nz]
  | .tsx => [.x]
  | .txs | .pha | .php => [.sp]
  | .pla => .a :: .sp :: if cfg.plaSetsNZ then [.nz] else []
  | .plp => [.sp, .nz, .v, .b, .d, .i, .c]
  | .clc | .sec => [.c]
  | .cli | .sei => [.i]
  | .cld | .sed => [.d]
  | .clv => [.v]
  | _ => []

/-- The pieces an instruction writes: its mnemonic's, and A where a shift or rotate works on it. -/
def instrWrites (cfg : Config) : Instr → List Piece
  | .aslAcc | .lsrAcc | .rolAcc | .rorAcc => [.a, .nz, .c]
  | i => rowWrites cfg i.mnemonic

/-! ## The shared operations keep to their rows of the table -/

variable {s t : State} {w : List Piece}

theorem WritesOnly.written (h : WritesOnly w s t) {p : Piece} (hp : ¬ p.Kept s t) : p ∈ w :=
  Classical.byContradiction fun hw => hp (h.kept p hw)

theorem WritesOnly.setA (h : WritesOnly w s t) (v : Byte) : WritesOnly (.a :: w) s (t.setA v) :=
  ⟨fun p hp => by have := h.kept p; cases p <;> simp_all [Piece.Kept], h.mem⟩

theorem WritesOnly.setX (h : WritesOnly w s t) (v : Byte) : WritesOnly (.x :: w) s (t.setX v) :=
  ⟨fun p hp => by have := h.kept p; cases p <;> simp_all [Piece.Kept], h.mem⟩

theorem WritesOnly.setY (h : WritesOnly w s t) (v : Byte) : WritesOnly (.y :: w) s (t.setY v) :=
  ⟨fun p hp => by have := h.kept p; cases p <;> simp_all [Piece.Kept], h.mem⟩

theorem WritesOnly.setSp (h : WritesOnly w s t) (v : Word) : WritesOnly (.sp :: w) s (t.setSp v) :=
  ⟨fun p hp => by have := h.kept p; cases p <;> simp_all [Piece.Kept], h.mem⟩

theorem writesOnly_refl : WritesOnly [] s s := ⟨fun p _ => by cases p <;> simp [Piece.Kept], .inl rfl⟩

theorem writesOnly_write {k : Nat} (hk : k < memSize) (v : Byte) : WritesOnly [] s (s.setMem (s.mem.write k v)) :=
  ⟨writesOnly_refl.kept, .inr ⟨k, v, hk, rfl⟩⟩

/-- A flag write of the pieces `w`: those not in `w` are flags that `f` keeps. -/
theorem writesOnly_setFlags {f : Flags} (h : ∀ p, p ∉ w → p.Kept s (s.setFlags f)) : WritesOnly w s (s.setFlags f) :=
  ⟨h, .inl rfl⟩

theorem writesOnly_setNZ (r : Byte) : WritesOnly [.nz] s (s.setFlags (s.flags.setNZ r)) :=
  writesOnly_setFlags fun p hp => by cases p <;> simp [Piece.Kept] at *

theorem writesOnly_setC (c : Bool) : WritesOnly [.c] s (s.setFlags { s.flags with c := c }) :=
  writesOnly_setFlags fun p hp => by cases p <;> simp [Piece.Kept] at *

theorem writesOnly_setI (i : Bool) : WritesOnly [.i] s (s.setFlags { s.flags with i := i }) :=
  writesOnly_setFlags fun p hp => by cases p <;> simp [Piece.Kept] at *

theorem writesOnly_setD (d : Bool) : WritesOnly [.d] s (s.setFlags { s.flags with d := d }) :=
  writesOnly_setFlags fun p hp => by cases p <;> simp [Piece.Kept] at *

theorem writesOnly_setV (v : Bool) : WritesOnly [.v] s (s.setFlags { s.flags with v := v }) :=
  writesOnly_setFlags fun p hp => by cases p <;> simp [Piece.Kept] at *

/-- The flags of ADC and SBC. -/
theorem writesOnly_setArith (r : Int) (op1 op2 : Byte) :
    WritesOnly [.nz, .v, .c] s (s.setFlags (s.flags.setArith r op1 op2)) :=
  writesOnly_setFlags fun p hp => by cases p <;> simp [Piece.Kept] at *

/-- The flags of ASL, ROL and ROR. -/
theorem writesOnly_shiftFlags (c : Bool) (r : Byte) :
    WritesOnly [.nz, .c] s (s.setFlags ({ s.flags with c := c }.setNZ r)) :=
  writesOnly_setFlags fun p hp => by cases p <;> simp [Piece.Kept] at *

/-- The flags of LSR. -/
theorem writesOnly_lsrFlags (c : Bool) (r : Byte) :
    WritesOnly [.nz, .c] s (s.setFlags { { s.flags with c := c }.setNZ r with n := false }) :=
  writesOnly_setFlags fun p hp => by cases p <;> simp [Piece.Kept] at *

/-- The flags of PLP. -/
theorem writesOnly_allFlags (f : Flags) : WritesOnly [.nz, .v, .b, .d, .i, .c] s (s.setFlags f) :=
  writesOnly_setFlags fun p hp => by cases p <;> simp [Piece.Kept] at *

/-- The flags of PLA, by PLA_SETS_NZ. -/
theorem writesOnly_plaFlags (r : Byte) :
    WritesOnly (if s.cfg.plaSetsNZ then [.nz] else []) s
      (s.setFlags (if s.cfg.plaSetsNZ then s.flags.setNZ r else s.flags)) := by
  split
  · exact writesOnly_setNZ r
  · exact writesOnly_refl

theorem Faulted.writesOnly (h : Faulted s t) : WritesOnly w s t := by
  obtain ⟨a, -, rfl⟩ := h
  exact ⟨fun p _ => by cases p <;> simp [Piece.Kept], .inl rfl⟩

/-- An instruction that always completes. -/
theorem next_writesOnly {u : State} (h : (.next u : Result) = .next t) (hu : WritesOnly w s u) : WritesOnly w s t := by
  cases h
  exact hu

theorem load_writesOnly {set : State → Byte → State} {src : Source} (h : load set src s = .next t)
    (hset : ∀ v, WritesOnly w s ((set s v).setFlags (s.flags.setNZ v))) : WritesOnly w s t := by
  rcases load_next h with ⟨v, -, rfl⟩ | hf
  · exact hset v
  · exact hf.writesOnly

theorem store_writesOnly {v : Byte} {m : MemMode} (h : store v m s = .next t) : WritesOnly [] s t := by
  rcases store_next h with ⟨a, k, -, hk, rfl⟩ | hf
  · exact writesOnly_write (translateAddress_lt hk) v
  · exact hf.writesOnly

theorem logical_writesOnly {f : Byte → Byte → Byte} {src : Source} (h : logical f src s = .next t) :
    WritesOnly [.a, .nz] s t := by
  rcases logical_next h with ⟨m, -, rfl⟩ | hf
  · exact (writesOnly_setNZ _).setA _
  · exact hf.writesOnly

theorem arithmetic_writesOnly {f : Int → Int → Int} {src : Source} (h : arithmetic f src s = .next t) :
    WritesOnly [.a, .nz, .v, .c] s t := by
  rcases arithmetic_next h with ⟨m, -, rfl⟩ | hf
  · exact (writesOnly_setArith _ _ _).setA _
  · exact hf.writesOnly

/-- The memory forms of the shifts and rotates, INC and DEC. -/
theorem rmw_mem_writesOnly {m : MemMode} {f : Byte → Byte} {flags : Byte → Byte → Flags}
    (h : commit s (s.rmw (.mem m) f flags) = .next t)
    (hflags : ∀ v r, WritesOnly w s (s.setFlags (flags v r))) : WritesOnly w s t := by
  rcases commit_rmw_next h with ⟨hm, -⟩ | ⟨m, a, k, -, -, hk, rfl⟩ | hf
  · cases hm
  · exact ⟨(hflags _ _).kept, .inr ⟨k, _, translateAddress_lt hk, rfl⟩⟩
  · exact hf.writesOnly

theorem push_writesOnly {v : Byte} (h : commit s (s.push v) = .next t) : WritesOnly [.sp] s t := by
  rcases push_next h with ⟨k, hk, rfl⟩ | hf
  · exact (writesOnly_write (translateAddress_lt hk) v).setSp _
  · exact hf.writesOnly

theorem pull_writesOnly {g : Byte × State → State} (h : commit s (s.pull.map g) = .next t)
    (hg : ∀ v, WritesOnly w s (g (v, s.setSp (s.sp + 1)))) : WritesOnly w s t := by
  rcases pull_next h with ⟨k, -, rfl⟩ | hf
  · exact hg _
  · exact hf.writesOnly

theorem execTxs_writesOnly (h : execTxs s = .next t) : WritesOnly [.sp] s t := by
  unfold execTxs at h
  split at h
  · exact next_writesOnly h (writesOnly_refl.setSp _)
  · exact next_writesOnly h (writesOnly_refl.setSp _)

/-- Every instruction keeps to its row of the writer table. The immediate and accumulator forms touch no memory, so
they stand with those that always complete. -/
theorem exec_writesOnly {i : Instr} (h : exec i s = .next t) : WritesOnly (instrWrites s.cfg i) s t := by
  cases i with
  | ldaZp _ | ldaZpX _ | ldaAbs _ | ldaAbsX _ | ldaAbsY _ | ldaIndX _ | ldaIndY _ =>
    exact load_writesOnly h fun v => (writesOnly_setNZ v).setA v
  | ldxZp _ | ldxZpY _ | ldxAbs _ | ldxAbsY _ => exact load_writesOnly h fun v => (writesOnly_setNZ v).setX v
  | ldyZp _ | ldyZpX _ | ldyAbs _ | ldyAbsX _ => exact load_writesOnly h fun v => (writesOnly_setNZ v).setY v
  | staZp _ | staZpX _ | staAbs _ | staAbsX _ | staAbsY _ | staIndX _ | staIndY _ | stxZp _ | stxZpY _
  | stxAbs _ | styZp _ | styZpX _ | styAbs _ =>
    exact store_writesOnly h
  | oraZp _ | oraZpX _ | oraAbs _ | oraAbsX _ | oraAbsY _ | oraIndX _ | oraIndY _ | andZp _ | andZpX _
  | andAbs _ | andAbsX _ | andAbsY _ | andIndX _ | andIndY _ | eorZp _ | eorZpX _ | eorAbs _ | eorAbsX _
  | eorAbsY _ | eorIndX _ | eorIndY _ =>
    exact logical_writesOnly h
  | adcZp _ | adcZpX _ | adcAbs _ | adcAbsX _ | adcAbsY _ | adcIndX _ | adcIndY _ | sbcZp _ | sbcZpX _
  | sbcAbs _ | sbcAbsX _ | sbcAbsY _ | sbcIndX _ | sbcIndY _ =>
    exact arithmetic_writesOnly h
  | aslZp _ | aslZpX _ | aslAbs _ | aslAbsX _ | rolZp _ | rolZpX _ | rolAbs _ | rolAbsX _ | rorZp _ | rorZpX _
  | rorAbs _ | rorAbsX _ =>
    exact rmw_mem_writesOnly h fun _ _ => writesOnly_shiftFlags _ _
  | lsrZp _ | lsrZpX _ | lsrAbs _ | lsrAbsX _ => exact rmw_mem_writesOnly h fun _ _ => writesOnly_lsrFlags _ _
  | incZp _ | incZpX _ | incAbs _ | incAbsX _ | decZp _ | decZpX _ | decAbs _ | decAbsX _ =>
    exact rmw_mem_writesOnly h fun _ => writesOnly_setNZ
  | pha | php => exact push_writesOnly h
  | pla => exact pull_writesOnly h fun v => ((writesOnly_plaFlags v).setSp _).setA v
  | plp => exact pull_writesOnly h fun _ => (writesOnly_allFlags _).setSp _
  | ldaImm _ | oraImm _ | andImm _ | eorImm _ | txa | tya => exact next_writesOnly h ((writesOnly_setNZ _).setA _)
  | ldxImm _ | inx | dex | tax => exact next_writesOnly h ((writesOnly_setNZ _).setX _)
  | ldyImm _ | iny | dey | tay => exact next_writesOnly h ((writesOnly_setNZ _).setY _)
  | adcImm _ | sbcImm _ => exact next_writesOnly h ((writesOnly_setArith _ _ _).setA _)
  | aslAcc | rolAcc | rorAcc => exact next_writesOnly h ((writesOnly_shiftFlags _ _).setA _)
  | lsrAcc => exact next_writesOnly h ((writesOnly_lsrFlags _ _).setA _)
  | tsx => exact next_writesOnly h (writesOnly_refl.setX _)
  | txs => exact execTxs_writesOnly h
  | clc | sec => exact next_writesOnly h (writesOnly_setC _)
  | cli | sei => exact next_writesOnly h (writesOnly_setI _)
  | cld | sed => exact next_writesOnly h (writesOnly_setD _)
  | clv => exact next_writesOnly h (writesOnly_setV _)
  | brk | bpl _ | bmi _ | bvc _ | bvs _ | bcc _ | bcs _ | bne _ | beq _ | jmpAbs _ | jmpInd _ | jsr _
  | rts | rti | cmpImm _ | cmpZp _ | cmpZpX _ | cmpAbs _ | cmpAbsX _ | cmpAbsY _ | cmpIndX _ | cmpIndY _
  | cpxImm _ | cpxZp _ | cpxAbs _ | cpyImm _ | cpyZp _ | cpyAbs _ | bitZp _ | bitAbs _ | undefined _ =>
    exact next_writesOnly h writesOnly_refl

/-! ## The table read backwards: the writers of each piece -/

/-- The accumulator forms write A beside what their mnemonic's row has; every other form writes that row. -/
theorem instrWrites_eq (cfg : Config) (i : Instr) :
    instrWrites cfg i = if i ∈ [Instr.aslAcc, .lsrAcc, .rolAcc, .rorAcc] then .a :: rowWrites cfg i.mnemonic
      else rowWrites cfg i.mnemonic := by
  cases i <;> simp [instrWrites, rowWrites, Instr.mnemonic]

section Writers

variable {cfg : Config} {i : Instr} {m : Mnemonic} {p : Piece}

theorem mem_rowWrites_of_ne_a (hp : p ≠ .a) (h : p ∈ instrWrites cfg i) : p ∈ rowWrites cfg i.mnemonic := by
  rw [instrWrites_eq] at h
  split at h
  · simpa [hp] using h
  · exact h

theorem a_mem_rowWrites (h : .a ∈ rowWrites cfg m) :
    m ∈ [Mnemonic.lda, .ora, .and, .eor, .adc, .sbc, .txa, .tya, .pla] := by
  cases m <;> simp [rowWrites] at *

theorem a_mem_instrWrites (h : .a ∈ instrWrites cfg i) :
    i.mnemonic ∈ [Mnemonic.lda, .ora, .and, .eor, .adc, .sbc, .asl, .lsr, .rol, .ror, .txa, .tya, .pla] := by
  rw [instrWrites_eq] at h
  split at h
  · next hacc =>
    simp only [List.mem_cons, List.not_mem_nil, or_false] at hacc
    rcases hacc with rfl | rfl | rfl | rfl <;> decide
  · have := a_mem_rowWrites h
    simp only [List.mem_cons] at *
    tauto

theorem x_mem_rowWrites (h : .x ∈ rowWrites cfg m) : m ∈ [Mnemonic.ldx, .inx, .dex, .tax, .tsx] := by
  cases m <;> simp [rowWrites] at *

theorem y_mem_rowWrites (h : .y ∈ rowWrites cfg m) : m ∈ [Mnemonic.ldy, .iny, .dey, .tay] := by
  cases m <;> simp [rowWrites] at *

theorem sp_mem_rowWrites (h : .sp ∈ rowWrites cfg m) : m ∈ [Mnemonic.pha, .php, .pla, .plp, .txs] := by
  cases m <;> simp [rowWrites] at *

theorem nz_mem_rowWrites (h : .nz ∈ rowWrites cfg m) :
    m ∈ [Mnemonic.lda, .ldx, .ldy, .ora, .and, .eor, .adc, .sbc, .asl, .lsr, .rol, .ror, .inc, .dec,
        .inx, .iny, .dex, .dey, .tax, .txa, .tay, .tya, .plp] ∨ (m = .pla ∧ cfg.plaSetsNZ = true) := by
  cases m <;> simp_all [rowWrites]

theorem v_mem_rowWrites (h : .v ∈ rowWrites cfg m) : m ∈ [Mnemonic.adc, .sbc, .clv, .plp] := by
  cases m <;> simp [rowWrites] at *

theorem b_mem_rowWrites (h : .b ∈ rowWrites cfg m) : m = .plp := by
  cases m <;> simp [rowWrites] at *

theorem d_mem_rowWrites (h : .d ∈ rowWrites cfg m) : m ∈ [Mnemonic.sed, .cld, .plp] := by
  cases m <;> simp [rowWrites] at *

theorem i_mem_rowWrites (h : .i ∈ rowWrites cfg m) : m ∈ [Mnemonic.sei, .cli, .plp] := by
  cases m <;> simp [rowWrites] at *

theorem c_mem_rowWrites (h : .c ∈ rowWrites cfg m) :
    m ∈ [Mnemonic.adc, .sbc, .asl, .lsr, .rol, .ror, .clc, .sec, .plp] := by
  cases m <;> simp [rowWrites] at *

theorem eq_plp_of_mnemonic (h : i.mnemonic = .plp) : i = .plp := by
  cases i <;> simp [Instr.mnemonic] at *

theorem eq_pla_of_mnemonic (h : i.mnemonic = .pla) : i = .pla := by
  cases i <;> simp [Instr.mnemonic] at *

end Writers

/-- Settles O49: a changed register stands in the row of the instruction, and each register's rows are the listed
ones; A stands in no row of a memory shift. -/
theorem registerWriters : Obligations.RegisterWriters := by
  intro i s t h
  have hw := exec_writesOnly h
  have hrow {p : Piece} (ha : p ≠ .a) (hp : ¬ p.Kept s t) := mem_rowWrites_of_ne_a ha (hw.written hp)
  refine ⟨fun ha => a_mem_instrWrites (hw.written (p := .a) ha), fun hx => x_mem_rowWrites (hrow (p := .x) nofun hx),
    fun hy => y_mem_rowWrites (hrow (p := .y) nofun hy), fun hsp => sp_mem_rowWrites (hrow (p := .sp) nofun hsp),
    fun hshift hmem => hw.kept .a fun ha => ?_⟩
  rw [instrWrites_eq, if_neg hmem] at ha
  have hnot := a_mem_rowWrites ha
  simp only [List.mem_cons, List.not_mem_nil, or_false] at hshift
  rcases hshift with hm | hm | hm | hm <;> simp [hm] at hnot

/-- Settles O50: a changed flag stands in the row of the instruction's mnemonic. -/
theorem flagWriters : Obligations.FlagWriters := by
  intro i s t h
  have hrow {p : Piece} (ha : p ≠ .a) (hp : ¬ p.Kept s t) := mem_rowWrites_of_ne_a ha ((exec_writesOnly h).written hp)
  refine ⟨fun hnz => ?_, fun hv => v_mem_rowWrites (hrow (p := .v) nofun hv),
    fun hb => eq_plp_of_mnemonic (b_mem_rowWrites (hrow (p := .b) nofun hb)),
    fun hd => d_mem_rowWrites (hrow (p := .d) nofun hd), fun hi => i_mem_rowWrites (hrow (p := .i) nofun hi),
    fun hc => c_mem_rowWrites (hrow (p := .c) nofun hc)⟩
  exact (nz_mem_rowWrites (hrow (p := .nz) nofun (not_and_or.mpr hnz))).imp_right
    fun ⟨hpla, hcfg⟩ => ⟨eq_pla_of_mnemonic hpla, hcfg⟩

end Sys2Proof.Machine
end

section
/-! SUPPORT. The invariant of a run (Safety.lean) holds at reset and at launch, and every step keeps it. -/

namespace Sys2Proof.Machine

/-- Settles O58: MEM is empty or the canonical image, PC is 0, and FAULT is empty. -/
theorem resetHoldsInvariant : Obligations.ResetHoldsInvariant :=
  ⟨⟨Memory.nil_wf, Nat.zero_le _, fun _ h => absurd rfl h, trivial⟩,
    fun _ _ hmem hlen => ⟨hmem, hlen, fun _ h => List.length_pos_of_ne_nil h, trivial⟩⟩

variable {s t : State}

theorem StoresAtMostOneByte.wf (h : StoresAtMostOneByte s t) (hs : s.mem.wf) : t.mem.wf := by
  rcases h with h | ⟨k, v, hk, h⟩
  · exact h ▸ hs
  · exact h ▸ Memory.write_wf v hs hk

/-- Fault entry keeps the invariant when the record has its ground. -/
theorem State.Inv.setFault {f : Fault} (h : s.Inv) (hf : (s.setFault (some f)).faultGrounded) :
    (s.setFault (some f)).Inv := by
  obtain ⟨hmem, hlen, hpc, -⟩ := h
  exact ⟨hmem, hlen, hpc, hf⟩

theorem State.Inv.setPhase_ended (h : s.Inv) : (s.setPhase .ended).Inv := by
  obtain ⟨hmem, hlen, -, hfault⟩ := h
  exact ⟨hmem, hlen, nofun, hfault⟩

/-- The host's advance puts PC inside the stream or ends the run (70_reset_and_hazards.md R336). -/
theorem advance_inv {len : Nat} (hmem : s.mem.wf) (hlen : s.stream.length ≤ maxStream) (hfault : s.fault = none) :
    (s.advance len).Inv := by
  refine ⟨hmem, hlen, fun hrun _ => ?_, by simp [State.faultGrounded, hfault]⟩
  have hin : s.pc.toNat + len < s.stream.length := by
    by_contra hge
    simp [Nat.le_of_not_lt hge] at hrun
  have hfit : s.pc.toNat + len < 2 ^ 16 := lt_of_lt_of_le hin hlen
  rwa [advance_pc, advance_stream, BitVec.toNat_ofNat, Nat.mod_eq_of_lt hfit]

/-- An instruction that the host has finished: completed and advanced, or faulted with PC on it. -/
theorem finish_exec_inv {i : Instr} {len : Nat} (h : s.Inv) (hnone : s.fault = none)
    (ht : finish len (exec i s) = .next t) : t.Inv := by
  obtain ⟨u, hu, hend⟩ := finish_next ht
  obtain ⟨u', hu', hsame | ⟨a, hout, rfl⟩⟩ := exec_allOrNothing i s
  · obtain rfl : u' = u := by simpa [hu'] using hu
    rcases hend with ⟨hsome, -⟩ | ⟨hu, rfl⟩
    · simp [hsame.fault, hnone] at hsome
    · obtain ⟨hmem, hlen, -, -⟩ := h
      exact advance_inv ((exec_writesOnly hu').mem.wf hmem) (hsame.stream ▸ hlen) hu
  · obtain rfl : s.setFault (some (.addressOutOfRange a)) = u := by simpa [hu'] using hu
    rcases hend with ⟨-, rfl⟩ | ⟨hu, -⟩
    · exact h.setFault hout
    · cases hu

/-- Settles O59, by the ways a step can go: the end of an empty run, a fetch fault, or a finished instruction. -/
theorem stepKeepsInvariant : Obligations.StepKeepsInvariant := by
  intro s t hinv ht
  rcases step_cases s with ⟨-, h⟩ | ⟨f, -, -, h⟩ | ⟨-, -, h⟩ | ⟨-, -, -, h⟩ | ⟨-, -, -, -, h⟩ | ⟨i, hnone, -, -, -, h⟩
  · simp [h] at ht
  · simp [h] at ht
  · simp [h] at ht
  · obtain rfl : s.setPhase .ended = t := by simpa [h] using ht
    exact hinv.setPhase_ended
  · obtain rfl : s.setFault (some (.fetchOutOfRange s.pc)) = t := by simpa [h] using ht
    exact hinv.setFault rfl
  · exact finish_exec_inv hinv hnone (h ▸ ht)

end Sys2Proof.Machine
end

section
/-! SUPPORT. What the flags steer (10_state.md R28, R30): two runs of an instruction from states that differ in the
flags alone reach the same state but for the flags, which each end the same in both runs or as they were. -/

namespace Sys2Proof.Machine

/-- Each flag of `F f` is the same for every `f`, or is that of `f`. -/
structure Unsteered (F : Flags → Flags) : Prop where
  n : ∀ f g, Claims.SameOrKept f.n g.n (F f).n (F g).n
  v : ∀ f g, Claims.SameOrKept f.v g.v (F f).v (F g).v
  b : ∀ f g, Claims.SameOrKept f.b g.b (F f).b (F g).b
  d : ∀ f g, Claims.SameOrKept f.d g.d (F f).d (F g).d
  i : ∀ f g, Claims.SameOrKept f.i g.i (F f).i (F g).i
  z : ∀ f g, Claims.SameOrKept f.z g.z (F f).z (F g).z
  c : ∀ f g, Claims.SameOrKept f.c g.c (F f).c (F g).c

theorem unsteered_id : Unsteered id := by constructor <;> simp [Claims.SameOrKept]

theorem unsteered_const (g : Flags) : Unsteered fun _ => g := by constructor <;> simp [Claims.SameOrKept]

theorem unsteered_setNZ (r : Byte) : Unsteered (·.setNZ r) := by constructor <;> simp [Claims.SameOrKept]

theorem unsteered_setArith (r : Int) (op1 op2 : Byte) : Unsteered (·.setArith r op1 op2) := by
  constructor <;> simp [Claims.SameOrKept, Flags.setArith]

theorem unsteered_setC (c : Bool) : Unsteered ({ · with c := c }) := by constructor <;> simp [Claims.SameOrKept]

theorem unsteered_setI (i : Bool) : Unsteered ({ · with i := i }) := by constructor <;> simp [Claims.SameOrKept]

theorem unsteered_setD (d : Bool) : Unsteered ({ · with d := d }) := by constructor <;> simp [Claims.SameOrKept]

theorem unsteered_setV (v : Bool) : Unsteered ({ · with v := v }) := by constructor <;> simp [Claims.SameOrKept]

theorem unsteered_shiftFlags (c : Bool) (r : Byte) : Unsteered ({ · with c := c }.setNZ r) := by
  constructor <;> simp [Claims.SameOrKept]

theorem unsteered_lsrFlags (c : Bool) (r : Byte) : Unsteered fun f => { { f with c := c }.setNZ r with n := false } := by
  constructor <;> simp [Claims.SameOrKept]

theorem unsteered_plaFlags (sets : Bool) (v : Byte) : Unsteered fun f => if sets then f.setNZ v else f := by
  cases sets
  · exact unsteered_id
  · exact unsteered_setNZ v

/-- From `s` with the flags `f`, for every `f` of `P`, the meaning `m` reaches one state `u`, which does not depend on
`f`, with the flags that an unsteered update makes of `f`. -/
def FlagBlind (P : Flags → Prop) (s : State) (m : State → Result) : Prop :=
  ∃ (u : State) (F : Flags → Flags), Unsteered F ∧ ∀ f, P f → m (s.setFlags f) = .next (u.setFlags (F f))

variable {P : Flags → Prop} {s : State}

theorem FlagBlind.congr {m m' : State → Result} (h : FlagBlind P s m)
    (hm : ∀ f, P f → m' (s.setFlags f) = m (s.setFlags f)) : FlagBlind P s m' := by
  obtain ⟨u, F, hF, hrun⟩ := h
  exact ⟨u, F, hF, fun f hf => (hm f hf).trans (hrun f hf)⟩

/-- An instruction that always completes. -/
theorem next_flagBlind {m : State → Result} (u : State) {F : Flags → Flags} (hF : Unsteered F)
    (hm : ∀ f, m (s.setFlags f) = .next (u.setFlags (F f))) : FlagBlind P s m := ⟨u, F, hF, fun f _ => hm f⟩

/-- One register takes the value `v`, which sets N and Z. -/
theorem register_flagBlind {m : State → Result} (set : Byte → State) (v : Byte)
    (hm : ∀ f, m (s.setFlags f) = .next ((set v).setFlags (f.setNZ v))) : FlagBlind P s m :=
  next_flagBlind (set v) (unsteered_setNZ v) hm

/-- A meaning that goes on with a value `r` that no flag steers, or takes its fault. -/
theorem commit_flagBlind {α : Type} {m : State → Result} (r : Except Fault α) (u : α → State) {F : α → Flags → Flags}
    (hF : ∀ v, Unsteered (F v))
    (hm : ∀ f, m (s.setFlags f) = commit (s.setFlags f) (r.map fun v => (u v).setFlags (F v f))) :
    FlagBlind P s m := by
  cases r with
  | ok v => exact next_flagBlind (u v) (hF v) hm
  | error e => exact next_flagBlind (s.setFault (some e)) unsteered_id hm

theorem load_flagBlind (set : State → Byte → State) (src : Source)
    (hset : ∀ v f g, (set (s.setFlags f) v).setFlags g = (set s v).setFlags g) : FlagBlind P s (load set src) :=
  commit_flagBlind (s.readSource src) (set s) unsteered_setNZ fun f =>
    congrArg (fun g => commit _ ((s.readSource src).map g)) (funext fun v => hset v f _)

theorem logical_flagBlind (g : Byte → Byte → Byte) (src : Source) : FlagBlind P s (logical g src) :=
  commit_flagBlind (s.readSource src) (fun m => s.setA (g s.a m)) (F := fun m f => f.setNZ (g s.a m))
    (fun _ => unsteered_setNZ _) fun _ => rfl

theorem arithmetic_flagBlind (g : Int → Int → Int) (src : Source) : FlagBlind P s (arithmetic g src) :=
  commit_flagBlind (s.readSource src) (fun m => s.setA (BitVec.ofInt 8 (g s.a.toNat m.toNat)))
    (F := fun m f => f.setArith (g s.a.toNat m.toNat) s.a m) (fun _ => unsteered_setArith _ _ _) fun _ => rfl

theorem store_flagBlind (v : State → Byte) (hv : ∀ f, v (s.setFlags f) = v s) (m : MemMode) :
    FlagBlind P s fun s' => store (v s') m s' := by
  obtain ⟨a, ha⟩ := ea_isOk s m
  refine commit_flagBlind (translateAddress s.cfg a) (fun k => s.setMem (s.mem.write k (v s))) (fun _ => unsteered_id)
    fun f => ?_
  have ha' : (s.setFlags f).ea m = .ok a := ha
  rw [store, ha', hv]
  rfl

/-- The shifts and rotates, INC and DEC: the flags after are an unsteered update of those before. -/
theorem rmw_flagBlind (tg : Target) (g : Byte → Byte) (flags : Byte → Byte → Flags → Flags)
    (hflags : ∀ v r, Unsteered (flags v r)) :
    FlagBlind P s fun s' => commit s' (s'.rmw tg g fun v r => flags v r s'.flags) := by
  cases tg with
  | acc => exact next_flagBlind (s.setA (g s.a)) (hflags s.a (g s.a)) fun _ => rfl
  | mem m =>
    obtain ⟨a, ha⟩ := ea_isOk s m
    refine commit_flagBlind (translateAddress s.cfg a) (fun k => s.setMem (s.mem.write k (g (s.mem.read k))))
      (fun k => hflags (s.mem.read k) (g (s.mem.read k))) fun f => ?_
    have ha' : (s.setFlags f).ea m = .ok a := ha
    simp only [State.rmw, State.memRead, State.memWrite, State.setFlags_cfg, ha', Except.bind]
    cases translateAddress s.cfg a <;> rfl

theorem shift_flagBlind (g : Byte → Byte) (out : Byte → Bool) (tg : Target) : FlagBlind P s (shift g out tg) :=
  rmw_flagBlind tg g (fun v r f => { f with c := out v }.setNZ r) fun _ _ => unsteered_shiftFlags _ _

theorem lsr_flagBlind (tg : Target) : FlagBlind P s (lsr tg) :=
  rmw_flagBlind tg (· >>> 1) (fun v r f => { { f with c := v.getLsbD 0 }.setNZ r with n := false }) fun _ _ =>
    unsteered_lsrFlags _ _

theorem inc_flagBlind (m : MemMode) : FlagBlind P s (inc m) :=
  rmw_flagBlind (.mem m) (· + 1) (fun _ r f => f.setNZ r) fun _ => unsteered_setNZ

theorem dec_flagBlind (m : MemMode) : FlagBlind P s (dec m) :=
  rmw_flagBlind (.mem m) (· - 1) (fun _ r f => f.setNZ r) fun _ => unsteered_setNZ

/-- ROL is steered by C alone: with C fixed it is a shift by a fixed function. -/
theorem rol_flagBlind (hP : ∀ f, P f → f.c = s.flags.c) (tg : Target) : FlagBlind P s (rol tg) :=
  (shift_flagBlind (fun v => v <<< 1 ||| carryByte s.flags) (·.getLsbD 7) tg).congr fun f hf => by
    simp [rol, carryByte, hP f hf]

theorem ror_flagBlind (hP : ∀ f, P f → f.c = s.flags.c) (tg : Target) : FlagBlind P s (ror tg) :=
  (shift_flagBlind (fun v => v >>> 1 ||| carryByte s.flags <<< 7) (·.getLsbD 0) tg).congr fun f hf => by
    simp [ror, carryByte, hP f hf]

theorem execPha_flagBlind : FlagBlind P s execPha :=
  commit_flagBlind (translateAddress s.cfg s.sp) (fun k => (s.setMem (s.mem.write k s.a)).setSp (s.sp - 1))
    (fun _ => unsteered_id) fun f => by
      simp only [execPha, State.push, State.memWrite, State.setFlags_cfg, State.setFlags_sp]
      cases translateAddress s.cfg s.sp <;> rfl

/-- A pull whose instruction ends in `u v`, with its flags an unsteered update, for the pulled byte `v`. -/
theorem pull_flagBlind (g : State → Byte × State → State) (u : Byte → State) {F : Byte → Flags → Flags}
    (hF : ∀ v, Unsteered (F v))
    (hg : ∀ v f, g (s.setFlags f) (v, (s.setFlags f).setSp (s.sp + 1)) = (u v).setFlags (F v f)) :
    FlagBlind P s fun s' => commit s' (s'.pull.map (g s')) :=
  commit_flagBlind (s.memRead (s.sp + 1)) u hF fun f => by
    have hpull : (s.setFlags f).pull = (s.memRead (s.sp + 1)).map fun v => (v, (s.setFlags f).setSp (s.sp + 1)) := rfl
    simp only [hpull, ← hg]
    cases s.memRead (s.sp + 1) <;> rfl

theorem execPla_flagBlind : FlagBlind P s execPla :=
  pull_flagBlind _ (fun v => (s.setSp (s.sp + 1)).setA v) (unsteered_plaFlags s.cfg.plaSetsNZ) fun _ _ => rfl

theorem execPlp_flagBlind : FlagBlind P s execPlp :=
  pull_flagBlind _ (fun _ => s.setSp (s.sp + 1)) (fun v => unsteered_const (Flags.unpack v)) fun _ _ => rfl

theorem execTxs_flagBlind : FlagBlind P s execTxs := by
  cases h : s.cfg.txsMode with
  | zext =>
    refine next_flagBlind (s.setSp (s.x.zeroExtend 16)) unsteered_id fun f => ?_
    simp only [execTxs, State.setFlags_cfg, h]
    rfl
  | page1 =>
    refine next_flagBlind (s.setSp (0x0100 ||| s.x.zeroExtend 16)) unsteered_id fun f => ?_
    simp only [execTxs, State.setFlags_cfg, h]
    rfl

/-- No flag steers an instruction but PHP, and of the rotates only C. -/
theorem exec_flagBlind (i : Instr) (hphp : i ≠ .php)
    (hP : ∀ f, P f → i.mnemonic ∈ [Mnemonic.rol, .ror] → f.c = s.flags.c) :
    FlagBlind P s (exec i) := by
  cases i with
  | ldaZp _ | ldaZpX _ | ldaAbs _ | ldaAbsX _ | ldaAbsY _ | ldaIndX _ | ldaIndY _ =>
    exact load_flagBlind State.setA _ fun _ _ _ => rfl
  | ldxZp _ | ldxZpY _ | ldxAbs _ | ldxAbsY _ => exact load_flagBlind State.setX _ fun _ _ _ => rfl
  | ldyZp _ | ldyZpX _ | ldyAbs _ | ldyAbsX _ => exact load_flagBlind State.setY _ fun _ _ _ => rfl
  | ldaImm v => exact load_flagBlind State.setA (.imm v) fun _ _ _ => rfl
  | ldxImm v => exact load_flagBlind State.setX (.imm v) fun _ _ _ => rfl
  | ldyImm v => exact load_flagBlind State.setY (.imm v) fun _ _ _ => rfl
  | staZp _ | staZpX _ | staAbs _ | staAbsX _ | staAbsY _ | staIndX _ | staIndY _ =>
    exact store_flagBlind State.a (fun _ => rfl) _
  | stxZp _ | stxZpY _ | stxAbs _ => exact store_flagBlind State.x (fun _ => rfl) _
  | styZp _ | styZpX _ | styAbs _ => exact store_flagBlind State.y (fun _ => rfl) _
  | oraZp _ | oraZpX _ | oraAbs _ | oraAbsX _ | oraAbsY _ | oraIndX _ | oraIndY _ | andZp _ | andZpX _
  | andAbs _ | andAbsX _ | andAbsY _ | andIndX _ | andIndY _ | eorZp _ | eorZpX _ | eorAbs _ | eorAbsX _
  | eorAbsY _ | eorIndX _ | eorIndY _ =>
    exact logical_flagBlind _ _
  | oraImm v => exact logical_flagBlind (· ||| ·) (.imm v)
  | andImm v => exact logical_flagBlind (· &&& ·) (.imm v)
  | eorImm v => exact logical_flagBlind (· ^^^ ·) (.imm v)
  | adcZp _ | adcZpX _ | adcAbs _ | adcAbsX _ | adcAbsY _ | adcIndX _ | adcIndY _ | sbcZp _ | sbcZpX _
  | sbcAbs _ | sbcAbsX _ | sbcAbsY _ | sbcIndX _ | sbcIndY _ =>
    exact arithmetic_flagBlind _ _
  | adcImm v => exact arithmetic_flagBlind (· + ·) (.imm v)
  | sbcImm v => exact arithmetic_flagBlind (· - ·) (.imm v)
  | aslAcc => exact shift_flagBlind (· <<< 1) (·.getLsbD 7) .acc
  | lsrAcc => exact lsr_flagBlind .acc
  | rolAcc => exact rol_flagBlind (fun f hf => hP f hf (by simp [Instr.mnemonic])) .acc
  | rorAcc => exact ror_flagBlind (fun f hf => hP f hf (by simp [Instr.mnemonic])) .acc
  | aslZp _ | aslZpX _ | aslAbs _ | aslAbsX _ => exact shift_flagBlind (· <<< 1) (·.getLsbD 7) _
  | lsrZp _ | lsrZpX _ | lsrAbs _ | lsrAbsX _ => exact lsr_flagBlind _
  | rolZp _ | rolZpX _ | rolAbs _ | rolAbsX _ => exact rol_flagBlind (fun f hf => hP f hf (by simp [Instr.mnemonic])) _
  | rorZp _ | rorZpX _ | rorAbs _ | rorAbsX _ => exact ror_flagBlind (fun f hf => hP f hf (by simp [Instr.mnemonic])) _
  | incZp _ | incZpX _ | incAbs _ | incAbsX _ => exact inc_flagBlind _
  | decZp _ | decZpX _ | decAbs _ | decAbsX _ => exact dec_flagBlind _
  | inx => exact register_flagBlind s.setX (s.x + 1) fun _ => rfl
  | iny => exact register_flagBlind s.setY (s.y + 1) fun _ => rfl
  | dex => exact register_flagBlind s.setX (s.x - 1) fun _ => rfl
  | dey => exact register_flagBlind s.setY (s.y - 1) fun _ => rfl
  | tax => exact register_flagBlind s.setX s.a fun _ => rfl
  | txa => exact register_flagBlind s.setA s.x fun _ => rfl
  | tay => exact register_flagBlind s.setY s.a fun _ => rfl
  | tya => exact register_flagBlind s.setA s.y fun _ => rfl
  | tsx => exact next_flagBlind (s.setX (lowByte s.sp)) unsteered_id fun _ => rfl
  | txs => exact execTxs_flagBlind
  | pha => exact execPha_flagBlind
  | pla => exact execPla_flagBlind
  | php => exact absurd rfl hphp
  | plp => exact execPlp_flagBlind
  | clc | sec => exact next_flagBlind s (unsteered_setC _) fun _ => rfl
  | cli | sei => exact next_flagBlind s (unsteered_setI _) fun _ => rfl
  | cld | sed => exact next_flagBlind s (unsteered_setD _) fun _ => rfl
  | clv => exact next_flagBlind s (unsteered_setV _) fun _ => rfl
  | brk | bpl _ | bmi _ | bvc _ | bvs _ | bcc _ | bcs _ | bne _ | beq _ | jmpAbs _ | jmpInd _ | jsr _
  | rts | rti | cmpImm _ | cmpZp _ | cmpZpX _ | cmpAbs _ | cmpAbsX _ | cmpAbsY _ | cmpIndX _ | cmpIndY _
  | cpxImm _ | cpxZp _ | cpxAbs _ | cpyImm _ | cpyZp _ | cpyAbs _ | bitZp _ | bitAbs _ | undefined _ =>
    exact next_flagBlind s unsteered_id fun _ => rfl

/-- Settles O52: the run from `s` and the run from `s` with the flags `f` end in one state with the flags that one
unsteered update makes of each. -/
theorem flagsDoNotSteerInstructions : Obligations.FlagsDoNotSteerInstructions := by
  intro i s t f ht hphp hrot
  obtain ⟨u, F, ⟨hn, hv, hb, hd, hi, hz, hc⟩, hrun⟩ :=
    exec_flagBlind (P := fun g => i.mnemonic ∈ [Mnemonic.rol, .ror] → g.c = s.flags.c) (s := s) i hphp fun _ hg => hg
  obtain rfl : u.setFlags (F s.flags) = t := by simpa using (hrun s.flags fun _ => rfl).symm.trans ht
  exact ⟨u.setFlags (F f), hrun f hrot, rfl, hn _ _, hv _ _, hb _ _, hd _ _, hi _ _, hz _ _, hc _ _⟩

end Sys2Proof.Machine
end

section
/-! SUPPORT. Reset (10_state.md R33, R34) and the layout of the status byte (10_state.md R29). -/

namespace Sys2Proof.Machine

/-- Settles O7: Reset writes constants and copies the stream and the parameters. -/
theorem resetValues : Obligations.ResetValues := fun _ =>
  ⟨rfl, rfl, rfl, rfl, rfl, rfl, rfl, rfl, rfl, rfl, rfl, rfl, fun _ _ => rfl, rfl, rfl, rfl, rfl⟩

/-- Settles O56: before reset a step is refused for the phase alone. -/
theorem stepBeforeResetIsRefused : Obligations.StepBeforeResetIsRefused := by
  intro s hphase
  have hstep : step s = .refused .notReset := by simpa [hphase] using step_cases s
  exact ⟨hstep, rfl, rfl⟩

/-- `BitVec.toNat_concat` for the form `Flags.pack` is written in. -/
theorem toNat_append_ofBool {w : Nat} (x : BitVec w) (b : Bool) : (x ++ BitVec.ofBool b).toNat = x.toNat * 2 + b.toNat :=
  BitVec.toNat_concat x b

/-- The packed byte bit by bit, high to low, with 0 for bit 5. -/
theorem pack_toNat (f : Flags) : f.pack.toNat = Claims.packedValue f := by
  have hzero : (0#1 : BitVec 1) = BitVec.ofBool false := rfl
  simp only [Flags.pack, hzero, toNat_append_ofBool, BitVec.toNat_ofBool, Claims.packedValue, Bool.toNat_false]
  omega

/-- Settles O19: Pack by its value, Unpack field by field. -/
theorem statusByteLayout : Obligations.StatusByteLayout := ⟨pack_toNat, fun _ => rfl⟩

end Sys2Proof.Machine
end

section
/-! SUPPORT. Data memory (20_memory.md): the place of an address is the index Translate gives (R51), and a memory in
canonical form is known from its reads (R61, log 12). -/

namespace Sys2Proof.Machine

variable {s : State} {a : Word} {k : Nat}

/-! ## The place of an address -/

theorem placeOf_eq_some_iff : Claims.placeOf s a = some k ↔ translateAddress s.cfg a = .ok k := by
  unfold Claims.placeOf translateAddress
  split
  · simp
  · cases s.cfg.oorPolicy <;> simp

theorem placeOf_eq_none_iff : Claims.placeOf s a = none ↔ Faults s a := by
  unfold Claims.placeOf Faults
  split
  · next hin => simp [hin]
  · next hout => cases s.cfg.oorPolicy <;> simp [Nat.le_of_not_lt hout]

theorem memRead_fault (hf : Faults s a) : s.memRead a = .error (.addressOutOfRange a) := by
  simp [State.memRead, translateAddress_of_fault hf.1 hf.2, Except.map]

theorem memWrite_fault (v : Byte) (hf : Faults s a) : s.memWrite a v = .error (.addressOutOfRange a) := by
  simp [State.memWrite, translateAddress_of_fault hf.1 hf.2, Except.map]

theorem writesByte_write (m : Memory) (k : Nat) (v : Byte) : Claims.WritesByte m (m.write k v) k v :=
  ⟨Memory.read_write_same m k v, fun _ hj => Memory.read_write_other m v hj⟩

/-- Settles O9: a place is a translated index, and an address without one faults. -/
theorem translateFollowsPolicy : Obligations.TranslateFollowsPolicy := by
  refine fun s a v => ⟨fun k hplace => ?_, fun hnone => ?_, rfl⟩
  · have hk := placeOf_eq_some_iff.mp hplace
    exact ⟨hk, memRead_of_translate hk, _, memWrite_of_translate v hk, writesByte_write s.mem k v⟩
  · have hf := placeOf_eq_none_iff.mp hnone
    exact ⟨translateAddress_of_fault hf.1 hf.2, memRead_fault hf, memWrite_fault v hf⟩

/-! ## The canonical form -/

namespace Memory

variable {m m' : Memory} {cell : Host.Cell}

/-- A byte that differs from what an unlisted address reads as has its cell. -/
theorem mem_of_read_ne_unlisted (h : m.read k ≠ unlisted) : (k, m.read k) ∈ m := by
  induction m with
  | nil => exact absurd (read_nil k) h
  | cons c m ih =>
    rw [read_cons] at h ⊢
    split at h
    · next hk => simp [← hk]
    · next hk => simp [hk, ih h]

/-- A listed cell is what its address reads as, since the addresses rise strictly. -/
theorem read_of_mem (hm : m.Pairwise fun p q => p.1 < q.1) (h : cell ∈ m) : m.read cell.1 = cell.2 := by
  induction m with
  | nil => cases h
  | cons c m ih =>
    obtain ⟨hlt, hm⟩ := List.pairwise_cons.mp hm
    rw [read_cons]
    rcases List.mem_cons.mp h with rfl | h
    · exact if_pos rfl
    · rw [if_neg (hlt cell h).ne, ih hm h]

/-- Every cell of a canonical memory is a cell of one that reads alike inside MEM. -/
theorem subset_of_reads (hm : m.wf) (h : ∀ j, j < 8192 → m.read j = m'.read j) : m ⊆ m' := by
  intro cell hc
  obtain ⟨hlt, hne⟩ := hm.2 cell hc
  have hread : m'.read cell.1 = cell.2 := (h _ hlt).symm.trans (read_of_mem hm.1 hc)
  have hmem : (cell.1, m'.read cell.1) ∈ m' := mem_of_read_ne_unlisted (hread ▸ hne)
  rwa [hread] at hmem

/-- Canonical memories that read alike inside MEM have the same cells, in the same order. -/
theorem eq_of_reads (hm : m.wf) (hm' : m'.wf) (h : ∀ j, j < 8192 → m.read j = m'.read j) : m = m' := by
  have hsub := subset_of_reads hm h
  have hsub' := subset_of_reads hm' fun j hj => (h j hj).symm
  have : Std.Irrefl fun p q : Host.Cell => p.1 < q.1 := ⟨fun p => lt_irrefl p.1⟩
  have : Std.Antisymm fun p q : Host.Cell => p.1 < q.1 := ⟨fun _ _ hpq hqp => absurd hqp (lt_asymm hpq)⟩
  exact hsub.antisymm_of_pairwise hm.1 hm'.1 hsub'

end Memory

/-- Settles O10, by the laws of a read after a write and of the canonical form. -/
theorem memoryReadsLatestWrite : Obligations.MemoryReadsLatestWrite := fun m k v =>
  ⟨Memory.read_write_same m k v, fun _ hj => Memory.read_write_other m v hj, fun hm hk => Memory.write_wf v hm hk,
    fun hm _ hm' h => Memory.eq_of_reads hm hm' h⟩

end Sys2Proof.Machine
end

section
/-! SUPPORT. Who writes MEM, and where (20_memory.md R50, 40_dispatch_addressing.md R122): each shared operation, and so
`exec`, writes the byte at the place of its store address or leaves MEM alone. -/

namespace Sys2Proof.Machine

/-- MEM of `t` is that of `s` with the byte at the place of the address written; it is that of `s` itself where there is
no address, or no place. -/
def StoresOnlyAt (s t : State) : Option Word → Prop
  | none => t.mem = s.mem
  | some a => (∀ k, Claims.placeOf s a = some k → ∃ v, t.mem = s.mem.write k v)
      ∧ (Claims.placeOf s a = none → t.mem = s.mem)

variable {s t : State} {a : Word}

/-! ## The storing operations -/

/-- An operation that writes the byte of a translated address and fails on a faulting one. -/
theorem commit_storesOnlyAt {r : Except Fault State}
    (hok : ∀ k, translateAddress s.cfg a = .ok k → ∃ u v, r = .ok u ∧ u.mem = s.mem.write k v)
    (herr : Faults s a → r = .error (.addressOutOfRange a)) (h : commit s r = .next t) :
    StoresOnlyAt s t (some a) := by
  refine ⟨fun k hplace => ?_, fun hnone => ?_⟩
  · obtain ⟨u, v, rfl, hmem⟩ := hok k (placeOf_eq_some_iff.mp hplace)
    cases h
    exact ⟨v, hmem⟩
  · rw [herr (placeOf_eq_none_iff.mp hnone)] at h
    cases h
    rfl

theorem store_eq {m : MemMode} (v : Byte) (ha : s.ea m = .ok a) : store v m s = commit s (s.memWrite a v) := by
  rw [store, ha]
  rfl

theorem store_storesOnlyAt {v : Byte} {m : MemMode} (h : store v m s = .next t) :
    StoresOnlyAt s t (s.ea m).toOption := by
  obtain ⟨a, ha⟩ := ea_isOk s m
  rw [store_eq v ha] at h
  rw [ha]
  exact commit_storesOnlyAt (fun _ hk => ⟨_, v, memWrite_of_translate v hk, rfl⟩) (memWrite_fault v) h

/-- The memory forms of the shifts and rotates, INC and DEC. -/
theorem rmw_storesOnlyAt {m : MemMode} {f : Byte → Byte} {flags : Byte → Byte → Flags}
    (h : commit s (s.rmw (.mem m) f flags) = .next t) : StoresOnlyAt s t (s.ea m).toOption := by
  obtain ⟨a, ha⟩ := ea_isOk s m
  rw [ha]
  exact commit_storesOnlyAt (fun _ hk => ⟨_, _, rmw_mem ha hk, rfl⟩) (rmw_fault ha) h

theorem push_of_translate {k : Nat} (v : Byte) (hk : translateAddress s.cfg s.sp = .ok k) :
    s.push v = .ok ((s.setMem (s.mem.write k v)).setSp (s.sp - 1)) := by
  rw [State.push, memWrite_of_translate v hk]
  rfl

theorem push_fault (v : Byte) (hf : Faults s s.sp) : s.push v = .error (.addressOutOfRange s.sp) := by
  rw [State.push, memWrite_fault v hf]
  rfl

theorem push_storesOnlyAt {v : Byte} (h : commit s (s.push v) = .next t) : StoresOnlyAt s t (some s.sp) :=
  commit_storesOnlyAt (fun _ hk => ⟨_, v, push_of_translate v hk, rfl⟩) (push_fault v) h

/-! ## The operations that leave MEM alone -/

theorem Faulted.mem (h : Faulted s t) : t.mem = s.mem := by
  obtain ⟨a, -, rfl⟩ := h
  rfl

theorem next_mem {u : State} (h : (.next u : Result) = .next t) (hu : u.mem = s.mem) : t.mem = s.mem := by
  cases h
  exact hu

/-- An instruction that only reads memory, and then writes registers and flags. -/
theorem commit_map_mem {α : Type} {r : Except Fault α} {g : α → State} (h : commit s (r.map g) = .next t)
    (hg : ∀ v, (g v).mem = s.mem) : t.mem = s.mem := by
  cases r with
  | ok v => exact next_mem h (hg v)
  | error f => exact next_mem h rfl

theorem pull_mem {g : Byte × State → State} (h : commit s (s.pull.map g) = .next t)
    (hg : ∀ v, (g (v, s.setSp (s.sp + 1))).mem = s.mem) : t.mem = s.mem := by
  rcases pull_next h with ⟨k, -, rfl⟩ | hf
  · exact hg _
  · exact hf.mem

theorem execTxs_mem (h : execTxs s = .next t) : t.mem = s.mem := by
  unfold execTxs at h
  split at h
  · exact next_mem h rfl
  · exact next_mem h rfl

/-- The dispatch by shared operation: the stores, the memory forms of RMW and the pushes write at their store address;
the reads, the pulls and the instructions that touch no memory have none. -/
theorem exec_storesOnlyAt {i : Instr} (h : exec i s = .next t) : StoresOnlyAt s t (Claims.storeAddress s i) := by
  cases i with
  | staZp _ | staZpX _ | staAbs _ | staAbsX _ | staAbsY _ | staIndX _ | staIndY _ | stxZp _ | stxZpY _
  | stxAbs _ | styZp _ | styZpX _ | styAbs _ =>
    exact store_storesOnlyAt h
  | aslZp _ | aslZpX _ | aslAbs _ | aslAbsX _ | lsrZp _ | lsrZpX _ | lsrAbs _ | lsrAbsX _ | rolZp _ | rolZpX _
  | rolAbs _ | rolAbsX _ | rorZp _ | rorZpX _ | rorAbs _ | rorAbsX _ | incZp _ | incZpX _ | incAbs _
  | incAbsX _ | decZp _ | decZpX _ | decAbs _ | decAbsX _ =>
    exact rmw_storesOnlyAt h
  | pha | php => exact push_storesOnlyAt h
  | ldaZp _ | ldaZpX _ | ldaAbs _ | ldaAbsX _ | ldaAbsY _ | ldaIndX _ | ldaIndY _ | ldxZp _ | ldxZpY _ | ldxAbs _
  | ldxAbsY _ | ldyZp _ | ldyZpX _ | ldyAbs _ | ldyAbsX _ | oraZp _ | oraZpX _ | oraAbs _ | oraAbsX _ | oraAbsY _
  | oraIndX _ | oraIndY _ | andZp _ | andZpX _ | andAbs _ | andAbsX _ | andAbsY _ | andIndX _ | andIndY _ | eorZp _
  | eorZpX _ | eorAbs _ | eorAbsX _ | eorAbsY _ | eorIndX _ | eorIndY _ | adcZp _ | adcZpX _ | adcAbs _ | adcAbsX _
  | adcAbsY _ | adcIndX _ | adcIndY _ | sbcZp _ | sbcZpX _ | sbcAbs _ | sbcAbsX _ | sbcAbsY _ | sbcIndX _
  | sbcIndY _ =>
    exact commit_map_mem h fun _ => rfl
  | pla | plp => exact pull_mem h fun _ => rfl
  | txs => exact execTxs_mem h
  | ldaImm _ | ldxImm _ | ldyImm _ | oraImm _ | andImm _ | eorImm _ | adcImm _ | sbcImm _ | aslAcc | lsrAcc | rolAcc
  | rorAcc | inx | iny | dex | dey | tax | txa | tay | tya | tsx | clc | sec | cli | sei | cld | sed | clv | brk
  | bpl _ | bmi _ | bvc _ | bvs _ | bcc _ | bcs _ | bne _ | beq _ | jmpAbs _ | jmpInd _
  | jsr _ | rts | rti | cmpImm _ | cmpZp _ | cmpZpX _ | cmpAbs _ | cmpAbsX _ | cmpAbsY _ | cmpIndX _ | cmpIndY _
  | cpxImm _ | cpxZp _ | cpxAbs _ | cpyImm _ | cpyZp _ | cpyAbs _ | bitZp _ | bitAbs _ | undefined _ =>
    exact next_mem h rfl

/-! ## Which instructions have a store address -/

/-- The stores, the memory forms of the shifts, rotates, INC and DEC, and the pushes. -/
def StoresToMemory (i : Instr) : Prop :=
  i.mnemonic ∈ [Mnemonic.sta, .stx, .sty, .asl, .lsr, .rol, .ror, .inc, .dec, .pha, .php]
    ∧ i ∉ [Instr.aslAcc, .lsrAcc, .rolAcc, .rorAcc]

theorem ea_toOption_exists (s : State) (m : MemMode) : ∃ a, (s.ea m).toOption = some a := by
  obtain ⟨a, ha⟩ := ea_isOk s m
  exact ⟨a, by rw [ha]; rfl⟩

/-- The forms with a store address are those of the two lists of writers: the direct modes and SP are addresses as they
stand, and the two indirect modes resolve as well. -/
theorem storeAddress_exists_iff (s : State) (i : Instr) :
    (∃ a, Claims.storeAddress s i = some a) ↔ StoresToMemory i := by
  cases i with
  | staZp _ | staZpX _ | staAbs _ | staAbsX _ | staAbsY _ | stxZp _ | stxZpY _ | stxAbs _ | styZp _ | styZpX _
  | styAbs _ | aslZp _ | aslZpX _ | aslAbs _ | aslAbsX _ | lsrZp _ | lsrZpX _ | lsrAbs _ | lsrAbsX _ | rolZp _
  | rolZpX _ | rolAbs _ | rolAbsX _ | rorZp _ | rorZpX _ | rorAbs _ | rorAbsX _ | incZp _ | incZpX _ | incAbs _
  | incAbsX _ | decZp _ | decZpX _ | decAbs _ | decAbsX _ | pha | php =>
    exact iff_of_true ⟨_, rfl⟩ (by simp [StoresToMemory, Instr.mnemonic])
  | staIndX _ | staIndY _ =>
    exact iff_of_true (ea_toOption_exists s _) (by simp [StoresToMemory, Instr.mnemonic])
  | _ => exact iff_of_false (fun ⟨_, hnone⟩ => nomatch hnone) (by simp [StoresToMemory, Instr.mnemonic])

theorem storeAddress_eq_none {i : Instr} (hi : ¬ StoresToMemory i) : Claims.storeAddress s i = none :=
  Option.eq_none_iff_forall_ne_some.mpr fun a ha => hi ((storeAddress_exists_iff s i).mp ⟨a, ha⟩)

/-- Settles O51: MEM changes at the place of the store address alone, and the instructions that store have one. -/
theorem memoryWriters : Obligations.MemoryWriters := by
  intro i s t h
  have hstores := exec_storesOnlyAt h
  have hkept (hnone : Claims.storeAddress s i = none) : t.mem = s.mem := by rwa [hnone] at hstores
  refine ⟨fun a ha => ?_, hkept, fun hi => hkept (storeAddress_eq_none fun ⟨hmn, hacc⟩ => hi.elim (· hmn) hacc),
    (storeAddress_exists_iff s i).mpr⟩
  rw [ha] at hstores
  obtain ⟨hplace, hnone⟩ := hstores
  refine ⟨fun k hk => ?_, hnone⟩
  obtain ⟨v, hmem⟩ := hplace k hk
  exact ⟨translateAddress_lt (placeOf_eq_some_iff.mp hk), v, hmem, hmem ▸ writesByte_write s.mem k v⟩

end Sys2Proof.Machine
end

section
/-! SUPPORT. The encoding (30_encoding.md): the decoder reads an instruction back from its bytes and keeps every bit of
what it reads, the opcode sets the length, and the bytes outside IMPL_SET are one-byte no-ops. -/

namespace Sys2Proof.Laws.MapCell

/-- The statements of the constructors, put together. -/
theorem statement : ∀ i : Instr, Statement i
  | .ldaImm _ => ldaImm _ | .ldaZp _ => ldaZp _ | .ldaZpX _ => ldaZpX _ | .ldaAbs _ => ldaAbs _
  | .ldaAbsX _ => ldaAbsX _ | .ldaAbsY _ => ldaAbsY _ | .ldaIndX _ => ldaIndX _ | .ldaIndY _ => ldaIndY _
  | .ldxImm _ => ldxImm _ | .ldxZp _ => ldxZp _ | .ldxZpY _ => ldxZpY _ | .ldxAbs _ => ldxAbs _
  | .ldxAbsY _ => ldxAbsY _ | .ldyImm _ => ldyImm _ | .ldyZp _ => ldyZp _ | .ldyZpX _ => ldyZpX _
  | .ldyAbs _ => ldyAbs _ | .ldyAbsX _ => ldyAbsX _ | .staZp _ => staZp _ | .staZpX _ => staZpX _
  | .staAbs _ => staAbs _ | .staAbsX _ => staAbsX _ | .staAbsY _ => staAbsY _ | .staIndX _ => staIndX _
  | .staIndY _ => staIndY _ | .stxZp _ => stxZp _ | .stxZpY _ => stxZpY _ | .stxAbs _ => stxAbs _
  | .styZp _ => styZp _ | .styZpX _ => styZpX _ | .styAbs _ => styAbs _ | .oraImm _ => oraImm _ | .oraZp _ => oraZp _
  | .oraZpX _ => oraZpX _ | .oraAbs _ => oraAbs _ | .oraAbsX _ => oraAbsX _ | .oraAbsY _ => oraAbsY _
  | .oraIndX _ => oraIndX _ | .oraIndY _ => oraIndY _ | .andImm _ => andImm _ | .andZp _ => andZp _
  | .andZpX _ => andZpX _ | .andAbs _ => andAbs _ | .andAbsX _ => andAbsX _ | .andAbsY _ => andAbsY _
  | .andIndX _ => andIndX _ | .andIndY _ => andIndY _ | .eorImm _ => eorImm _ | .eorZp _ => eorZp _
  | .eorZpX _ => eorZpX _ | .eorAbs _ => eorAbs _ | .eorAbsX _ => eorAbsX _ | .eorAbsY _ => eorAbsY _
  | .eorIndX _ => eorIndX _ | .eorIndY _ => eorIndY _ | .adcImm _ => adcImm _ | .adcZp _ => adcZp _
  | .adcZpX _ => adcZpX _ | .adcAbs _ => adcAbs _ | .adcAbsX _ => adcAbsX _ | .adcAbsY _ => adcAbsY _
  | .adcIndX _ => adcIndX _ | .adcIndY _ => adcIndY _ | .sbcImm _ => sbcImm _ | .sbcZp _ => sbcZp _
  | .sbcZpX _ => sbcZpX _ | .sbcAbs _ => sbcAbs _ | .sbcAbsX _ => sbcAbsX _ | .sbcAbsY _ => sbcAbsY _
  | .sbcIndX _ => sbcIndX _ | .sbcIndY _ => sbcIndY _ | .aslAcc => aslAcc | .aslZp _ => aslZp _
  | .aslZpX _ => aslZpX _ | .aslAbs _ => aslAbs _ | .aslAbsX _ => aslAbsX _ | .lsrAcc => lsrAcc | .lsrZp _ => lsrZp _
  | .lsrZpX _ => lsrZpX _ | .lsrAbs _ => lsrAbs _ | .lsrAbsX _ => lsrAbsX _ | .rolAcc => rolAcc | .rolZp _ => rolZp _
  | .rolZpX _ => rolZpX _ | .rolAbs _ => rolAbs _ | .rolAbsX _ => rolAbsX _ | .rorAcc => rorAcc | .rorZp _ => rorZp _
  | .rorZpX _ => rorZpX _ | .rorAbs _ => rorAbs _ | .rorAbsX _ => rorAbsX _ | .incZp _ => incZp _
  | .incZpX _ => incZpX _ | .incAbs _ => incAbs _ | .incAbsX _ => incAbsX _ | .decZp _ => decZp _
  | .decZpX _ => decZpX _ | .decAbs _ => decAbs _ | .decAbsX _ => decAbsX _ | .inx => inx | .iny => iny | .dex => dex
  | .dey => dey | .tax => tax | .txa => txa | .tay => tay | .tya => tya | .tsx => tsx | .txs => txs | .pha => pha
  | .pla => pla | .php => php | .plp => plp | .clc => clc | .sec => sec | .cli => cli | .sei => sei | .cld => cld
  | .sed => sed | .clv => clv | .brk => brk | .bpl _ => bpl _ | .bmi _ => bmi _ | .bvc _ => bvc _ | .bvs _ => bvs _
  | .bcc _ => bcc _ | .bcs _ => bcs _ | .bne _ => bne _ | .beq _ => beq _ | .jmpAbs _ => jmpAbs _
  | .jmpInd _ => jmpInd _ | .jsr _ => jsr _ | .rts => rts | .rti => rti | .cmpImm _ => cmpImm _ | .cmpZp _ => cmpZp _
  | .cmpZpX _ => cmpZpX _ | .cmpAbs _ => cmpAbs _ | .cmpAbsX _ => cmpAbsX _ | .cmpAbsY _ => cmpAbsY _
  | .cmpIndX _ => cmpIndX _ | .cmpIndY _ => cmpIndY _ | .cpxImm _ => cpxImm _ | .cpxZp _ => cpxZp _
  | .cpxAbs _ => cpxAbs _ | .cpyImm _ => cpyImm _ | .cpyZp _ => cpyZp _ | .cpyAbs _ => cpyAbs _ | .bitZp _ => bitZp _
  | .bitAbs _ => bitAbs _ | .undefined _ => undefined _

end Sys2Proof.Laws.MapCell

namespace Sys2Proof

open Machine

variable {cfg : Config} {op : Byte} {f : Format} {i : Instr} {bs rest : List Byte}

/-! ## Well-formed instructions, and an opcode outside IMPL_SET -/

theorem wellFormed_iff : WellFormed cfg i = true ↔ (cfg.implements i.opcode = true ↔ i.mnemonic ≠ .undefined) := by
  unfold WellFormed
  split <;> simp_all

theorem eq_undefined_of_mnemonic (h : i.mnemonic = .undefined) : i = .undefined i.opcode := by
  cases i with
  | undefined op => rfl
  | _ => cases h

theorem encode_eq_cons (i : Instr) : ∃ operands, encode i = i.opcode :: operands := by
  obtain ⟨op, operands, h⟩ := List.exists_cons_of_length_pos (length_pos i)
  exact ⟨operands, by simp [Instr.opcode, h]⟩

theorem decode_of_not_implements (rest : List Byte) (h : cfg.implements op = false) :
    decode cfg (op :: rest) = .ok (.undefined op, rest) := by
  rw [decode_cons, formatOf_of_not_implements h, Format.take]

theorem exec_undefined (op : Byte) (s : State) : exec (.undefined op) s = .next s := rfl

/-! ## The two round trips -/

/-- Settles O1: an opcode in IMPL_SET has its cell of the map, which takes the operands; any other is undefined. -/
theorem decodeOfEncode : Obligations.DecodeOfEncode := by
  intro cfg i rest hwf
  obtain ⟨operands, he⟩ := encode_eq_cons i
  have hmapped := wellFormed_iff.mp hwf
  cases hop : cfg.implements i.opcode with
  | true =>
    have hundef : i.mnemonic ≠ .undefined := hmapped.mp hop
    obtain ⟨htake, -⟩ := Laws.MapCell.statement i i.opcode operands rest he fun h => absurd h hundef
    rw [formatOf_of_implements hop, Option.getD_some] at htake
    rwa [he, List.cons_append, decode_cons]
  | false =>
    have hundef : i = .undefined i.opcode := eq_undefined_of_mnemonic (by simpa [hop] using hmapped)
    rw [hundef]
    exact decode_of_not_implements rest hop

/-- The bytes a cell of the map takes are those of the instruction it makes. -/
theorem take_encodes (hc : cellEncodes (op, f)) (h : f.take op bs = .ok (i, rest)) :
    op :: bs = encode i ++ rest ∧ i.mnemonic ≠ .undefined := by
  rcases take_ok h with ⟨rfl, rfl⟩ | ⟨g, b, rfl, rfl, rfl⟩ | ⟨g, b1, b2, rfl, rfl, rfl⟩
  · obtain ⟨he, hm⟩ := hc
    exact ⟨by simp [he], hm⟩
  · obtain ⟨he, hm⟩ := hc b
    exact ⟨by simp [he], hm⟩
  · obtain ⟨he, hm⟩ := hc (wordOf b2 b1)
    exact ⟨by simp [he, encodeWord], hm⟩

/-- Settles O2: an opcode in IMPL_SET through its cell of the map, any other as the undefined byte it is. -/
theorem encodeOfDecode : Obligations.EncodeOfDecode := by
  intro cfg bs i rest h
  cases bs with
  | nil => cases h
  | cons op bs =>
    cases hop : cfg.implements op with
    | true =>
      obtain ⟨hbytes, hmapped⟩ := take_encodes (mapCell_encodes (formatOf_of_implements hop)) h
      obtain ⟨operands, he⟩ := encode_eq_cons i
      obtain rfl : op = i.opcode := by simpa [he] using congrArg List.head? hbytes
      exact ⟨wellFormed_iff.mpr (iff_of_true hop hmapped), hbytes⟩
    | false =>
      rw [decode_of_not_implements bs hop] at h
      cases h
      exact ⟨wellFormed_iff.mpr (iff_of_false (ne_true_of_eq_false hop) (not_not_intro rfl)), rfl⟩

/-! ## The length -/

theorem take_length (h : f.take op bs = .ok (i, rest)) : bs.length + 1 = f.length + rest.length := by
  rcases take_ok h with ⟨rfl, rfl⟩ | ⟨g, b, rfl, rfl, rfl⟩ | ⟨g, b1, b2, rfl, rfl, rfl⟩ <;>
    simp only [Format.length, List.length_cons] <;> omega

/-- The length is that of the opcode's format (30_encoding.md R82). -/
theorem length_of_decode_cons (h : decode cfg (op :: bs) = .ok (i, rest)) : i.length = (formatOf cfg op).length := by
  have hdecode : bs.length + 1 = i.length + rest.length := decode_length h
  have htake : bs.length + 1 = (formatOf cfg op).length + rest.length := take_length h
  omega

/-- Settles O3: both lengths are that of the opcode's format. -/
theorem lengthIsSetByOpcode : Obligations.LengthIsSetByOpcode := by
  intro cfg op bs bs' i i' r r' h h'
  exact ⟨(length_of_decode_cons h).trans (length_of_decode_cons h').symm, length_pos i, length_le i⟩

/-! ## The map and its complement -/

/-- The opcode bytes of the map (30_encoding.md R85). -/
def mappedBytes : List Byte := opcodeMap.map Prod.fst

theorem mapCell_isSome_iff : (mapCell op).isSome = true ↔ op ∈ mappedBytes := by
  simp [mapCell, mappedBytes, List.find?_isSome]

theorem implements_iff : cfg.implements op = true ↔ op ∈ mappedBytes ∧ op ∉ cfg.implExcluded := by
  simp [Config.implements, mapCell_isSome_iff]

theorem default_implements_iff : Config.default.implements op = true ↔ op ∈ mappedBytes := by
  simp [implements_iff, Config.default]

/-- A list of bytes as the number whose bit `b` tells whether `b` is listed: one number compares the 256 bytes. -/
def byteSet (bs : List Byte) : Nat := bs.foldr (fun b n => 2 ^ b.toNat ||| n) 0

theorem testBit_byteSet (bs : List Byte) (b : Byte) : (byteSet bs).testBit b.toNat = decide (b ∈ bs) := by
  induction bs with
  | nil => simp [byteSet]
  | cons a bs ih =>
    have hcons : byteSet (a :: bs) = 2 ^ a.toNat ||| byteSet bs := rfl
    simp [hcons, Nat.testBit_or, Nat.testBit_two_pow, ih, BitVec.toNat_inj, eq_comm]

/-- Each of the 256 bytes stands in exactly one of the two lists. -/
theorem byteSet_undefinedBytes_xor_mappedBytes :
    byteSet Claims.undefinedBytes ^^^ byteSet mappedBytes = 2 ^ 256 - 1 := by
  simp [byteSet, mappedBytes, Claims.undefinedBytes, opcodeMap, opcodeRows0, opcodeRows1, opcodeRows2, opcodeRows3]

theorem mem_undefinedBytes_iff : op ∈ Claims.undefinedBytes ↔ op ∉ mappedBytes := by
  have h := congrArg (Nat.testBit · op.toNat) byteSet_undefinedBytes_xor_mappedBytes
  simp only [Nat.testBit_xor, testBit_byteSet, Nat.testBit_two_pow_sub_one] at h
  have hxor : op ∉ Claims.undefinedBytes ↔ op ∈ mappedBytes := by simpa [op.isLt, not_iff] using h
  exact (not_iff_comm.mp hxor).symm

/-- The map lists its opcodes in rising order. -/
theorem mappedBytes_rising : (mappedBytes.map BitVec.toNat).IsChain (· < ·) := by
  simp [mappedBytes, opcodeMap, opcodeRows0, opcodeRows1, opcodeRows2, opcodeRows3]

/-- Settles O5: the listed bytes are the complement of the map, so no record implements one. -/
theorem undefinedBytesAreOneByteNoOps : Obligations.UndefinedBytesAreOneByteNoOps := by
  refine ⟨fun op => ?_, fun cfg op rest hmem => ⟨decode_of_not_implements rest ?_, rfl, exec_undefined op⟩⟩
  · rw [mem_undefinedBytes_iff, ← default_implements_iff, Bool.not_eq_true]
  · exact Bool.eq_false_iff.mpr fun h => mem_undefinedBytes_iff.mp hmem (implements_iff.mp h).1

/-- The bytes of the default IMPL_SET are those of the map, counted once each. -/
theorem default_implements_perm :
    ((List.range 256).filter fun n => Config.default.implements (BitVec.ofNat 8 n)).Perm
      (mappedBytes.map BitVec.toNat) := by
  have hnodup := (List.isChain_iff_pairwise.mp mappedBytes_rising).nodup
  refine (List.perm_ext_iff_of_nodup (List.nodup_range.filter _) hnodup).mpr fun n => ?_
  simp only [List.mem_filter, List.mem_range, default_implements_iff, List.mem_map]
  constructor
  · rintro ⟨hn, hmem⟩
    exact ⟨_, hmem, by rw [BitVec.toNat_ofNat, Nat.mod_eq_of_lt hn]⟩
  · rintro ⟨b, hmem, rfl⟩
    exact ⟨b.isLt, by simpa using hmem⟩

/-- Settles O6: IMPL_SET is the map less the excluded opcodes, and the map has 150 distinct bytes. -/
theorem excludedOpcodesAreUndefined : Obligations.ExcludedOpcodesAreUndefined := by
  refine ⟨fun cfg op rest hex => ⟨decode_of_not_implements rest ?_, exec_undefined op⟩, fun cfg op => ?_, ?_⟩
  · exact Bool.eq_false_iff.mpr fun h => (implements_iff.mp h).2 hex
  · rw [implements_iff, default_implements_iff]
  · rw [List.countP_eq_length_filter, default_implements_perm.length_eq, List.length_map]
    rfl

/-! ## Sample words -/

/-- Settles O4: each word is evaluated by the decoder. -/
theorem sampleWordsDecode : Obligations.SampleWordsDecode := ⟨rfl, rfl, rfl, rfl, rfl, rfl, rfl, rfl⟩

end Sys2Proof
end

section
/-! SUPPORT. The effective addresses as numbers (40_dispatch_addressing.md R108 to R114). -/

namespace Sys2Proof.Machine

variable {s : State} {b x : Byte} {w : Word}

/-- A zero-page sum does not wrap: it is below 512. -/
theorem zext16_add_toNat : (zext16 b + zext16 x).toNat = b.toNat + x.toNat := by
  have hb := b.isLt
  have hx := x.isLt
  rw [BitVec.toNat_add, zext16_toNat, zext16_toNat]
  omega

theorem add_zext16_toNat : (w + zext16 x).toNat = (w.toNat + x.toNat) % 65536 := by
  rw [BitVec.toNat_add, zext16_toNat]

theorem ptrNext_toNat (cfg : Config) (p : Byte) : (ptrNext cfg p).toNat = Claims.nextIndex cfg p.toNat := by
  unfold ptrNext Claims.nextIndex
  split
  · exact (zext16_toNat _).trans (BitVec.toNat_add _ _)
  · exact zext16_add_toNat (x := 1)

theorem ea_indX (s : State) (b : Byte) : s.ea (.indX b) =
    .ok (wordOf (s.mem.read (Claims.nextIndex s.cfg (b + s.x).toNat)) (s.mem.read (b + s.x).toNat)) := by
  rw [State.ea, pointer_eq, ptrNext_toNat]
  rfl

theorem ea_indY (s : State) (b : Byte) : s.ea (.indY b) =
    .ok (indexPointer (s.mem.read b.toNat) (s.mem.read (Claims.nextIndex s.cfg b.toNat)) s.y) := by
  rw [State.ea, pointer_eq, ptrNext_toNat]
  rfl

/-- Settles O14: the address is the word at the base, and the base is the 8-bit sum. -/
theorem indexedIndirectAddress : Obligations.IndexedIndirectAddress := by
  intro s b
  have hbase : (b + s.x).toNat = (b.toNat + s.x.toNat) % 256 := BitVec.toNat_add b s.x
  exact ⟨_, ea_indX s b, by rw [wordOf_toNat, hbase]⟩

/-- Settles O15: the index goes to the low byte and its carry to the high byte, each taken modulo 256. -/
theorem indirectIndexedAddress : Obligations.IndirectIndexedAddress := by
  intro s b
  exact ⟨_, ea_indY s b, by rw [indexPointer, wordOf_toNat, BitVec.toNat_ofNat, BitVec.toNat_ofNat]⟩

/-- Settles O16: the bytewise procedure is a 16-bit sum. -/
theorem indirectIndexedIsSixteenBitSum : Obligations.IndirectIndexedIsSixteenBitSum := by
  intro s b
  exact ⟨_, ea_indY s b, by rw [indexPointer_eq, add_zext16_toNat, wordOf_toNat]⟩

/-- Settles O11: both operands of a zero-page sum are bytes. -/
theorem zeroPageAddresses : Obligations.ZeroPageAddresses := fun _ b =>
  ⟨⟨_, rfl, zext16_toNat b⟩, ⟨_, rfl, zext16_add_toNat⟩, ⟨_, rfl, zext16_add_toNat⟩⟩

/-- Settles O12: the word of two bytes, and a 16-bit sum. -/
theorem absoluteAddresses : Obligations.AbsoluteAddresses := by
  intro s lo hi
  have hword := wordOf_toNat hi lo
  exact ⟨⟨_, rfl, hword⟩, ⟨_, rfl, by rw [add_zext16_toNat, hword]⟩, ⟨_, rfl, by rw [add_zext16_toNat, hword]⟩⟩

/-- Settles O13, by the two values of PTR_WRAP. -/
theorem pointerHighByteAddress : Obligations.PointerHighByteAddress := by
  refine ⟨fun cfg p => ?_, rfl⟩
  rw [ptrNext_toNat, Claims.nextIndex]
  cases cfg.ptrWrap
  · rfl
  · rfl

end Sys2Proof.Machine
end

section
/-! SUPPORT. The flag rules by integer arithmetic (40_dispatch_addressing.md R120, R121). -/

namespace Sys2Proof.Machine

theorem getLsbD_seven_iff (t : Byte) : t.getLsbD 7 = true ↔ 128 ≤ t.toNat := by
  have hmsb : t.getLsbD 7 = t.msb := rfl
  rw [hmsb, BitVec.msb_eq_decide, decide_eq_true_iff]

theorem toNat_ofInt_eight (r : Int) : ((BitVec.ofInt 8 r).toNat : Int) = r % 256 := by
  rw [BitVec.toNat_ofInt]
  omega

theorem getLsbD_seven_ofInt_iff (r : Int) : (BitVec.ofInt 8 r).getLsbD 7 = true ↔ 128 ≤ r % 256 := by
  have ht := toNat_ofInt_eight r
  rw [getLsbD_seven_iff]
  omega

theorem ofInt_eight_eq_zero_iff (r : Int) : BitVec.ofInt 8 r = 0 ↔ r % 256 = 0 := by
  have ht := toNat_ofInt_eight r
  have hzero : (0 : Byte).toNat = 0 := rfl
  rw [← BitVec.toNat_inj, hzero]
  omega

namespace Flags

variable (f : Flags) (r : Int) (op1 op2 : Byte)

theorem setNZ_n_ofInt_iff : (f.setNZ (BitVec.ofInt 8 r)).n = true ↔ 128 ≤ r % 256 := getLsbD_seven_ofInt_iff r

theorem setNZ_z_ofInt_iff : (f.setNZ (BitVec.ofInt 8 r)).z = true ↔ r % 256 = 0 :=
  decide_eq_true_iff.trans (ofInt_eight_eq_zero_iff r)

theorem setArith_v_iff : (f.setArith r op1 op2).v = true ↔
    (128 ≤ op1.toNat ↔ 128 ≤ op2.toNat) ∧ ¬ (128 ≤ r % 256 ↔ 128 ≤ op1.toNat) := by
  rw [← getLsbD_seven_iff, ← getLsbD_seven_iff, ← getLsbD_seven_ofInt_iff, ← Bool.eq_iff_iff, ← Bool.eq_iff_iff,
    setArith, Bool.and_eq_true, beq_iff_eq, bne_iff_ne]

theorem setArith_c_iff : (f.setArith r op1 op2).c = true ↔ r < -128 ∨ 127 < r := by
  rw [setArith_c, Bool.or_eq_true, decide_eq_true_iff, decide_eq_true_iff]

end Flags

/-- Settles O17: the truncated result is `r` modulo 256. -/
theorem setNZRule : Obligations.SetNZRule := fun f r =>
  ⟨Flags.setNZ_n_ofInt_iff f r, Flags.setNZ_z_ofInt_iff f r, rfl⟩

/-- Settles O18: N and Z are those of SetNZ, V and C have their own rules, and B, D and I are not written. -/
theorem setArithRule : Obligations.SetArithRule := fun f r op1 op2 =>
  ⟨Flags.setNZ_n_ofInt_iff f r, Flags.setNZ_z_ofInt_iff f r, Flags.setArith_v_iff f r op1 op2,
    Flags.setArith_c_iff f r op1 op2, rfl, rfl, rfl⟩

end Sys2Proof.Machine
end

section
/-! SUPPORT. The dispatch of a step (40_dispatch_addressing.md R100, R102): in a run under way the fetch alone decides
whether an instruction runs, and the fetch succeeds when the whole instruction lies in the stream. -/

namespace Sys2Proof

variable {cfg : Config} {op : Byte} {f : Format} {i : Instr} {bs rest : List Byte}

theorem exists_take_of_length_le (op : Byte) (h : f.length ≤ bs.length + 1) :
    ∃ i rest, f.take op bs = .ok (i, rest) := by
  match f, bs with
  | .f1 i, bs => exact ⟨i, bs, rfl⟩
  | .f2 g, b :: bs => exact ⟨g b, bs, rfl⟩
  | .f3 g, b1 :: b2 :: bs => exact ⟨g (wordOf b2 b1), bs, rfl⟩
  | .f2 _, [] | .f3 _, [] | .f3 _, [_] => simp [Format.length] at h

theorem opcode_of_decode_cons (h : decode cfg (op :: bs) = .ok (i, rest)) : i.opcode = op := by
  obtain ⟨-, hbytes⟩ := encodeOfDecode cfg (op :: bs) i rest h
  obtain ⟨operands, he⟩ := encode_eq_cons i
  rw [he] at hbytes
  exact (List.cons.inj hbytes).1.symm

/-- Bytes as many as the opcode asks for are an instruction of that opcode and length. -/
theorem exists_decode_cons_of_length_le (h : (formatOf cfg op).length ≤ bs.length + 1) :
    ∃ i rest, decode cfg (op :: bs) = .ok (i, rest) ∧ i.opcode = op ∧ i.length = (formatOf cfg op).length := by
  obtain ⟨i, rest, hd⟩ := exists_take_of_length_le op h
  exact ⟨i, rest, hd, opcode_of_decode_cons hd, length_of_decode_cons hd⟩

namespace Machine

variable {s t : State}

/-- Settles O48: a completed instruction keeps the control state, and a faulted one writes FAULT alone. -/
theorem noInstructionWritesPcOrStream : Obligations.NoInstructionWritesPcOrStream := by
  intro i s t h
  obtain ⟨u, hu, hend⟩ := exec_allOrNothing i s
  obtain rfl : u = t := by simpa [hu] using h
  rcases hend with hsame | ⟨a, -, rfl⟩
  · exact ⟨hsame.pc, hsame.stream, hsame.cfg, hsame.phase⟩
  · exact ⟨rfl, rfl, rfl, rfl⟩

/-! ## Fetch -/

theorem fetch_of_decode (h : decode s.cfg (s.stream.drop s.pc.toNat) = .ok (i, rest)) : s.fetch = .ok i := by
  rw [State.fetch, h]

theorem fetch_fault_of_not_fits (h : ∀ i, s.fetch = .ok i → s.stream.length < s.pc.toNat + i.length) :
    s.fetch = .error (.fetchOutOfRange s.pc) := by
  cases hf : s.fetch with
  | ok i => exact absurd (fetch_fits hf) (Nat.not_le_of_lt (h i hf))
  | error e => rw [fetch_error hf]

/-! ## A step of a run under way -/

theorem step_of_fetch_ok (hrun : Claims.Runs s) (h : s.fetch = .ok i) : step s = finish i.length (exec i s) := by
  obtain ⟨hphase, hfault⟩ := hrun
  have hne : s.stream ≠ [] := by
    have hfits := fetch_fits h
    have hpos := length_pos i
    exact List.ne_nil_of_length_pos (by omega)
  simpa [hphase, hfault, hne, h] using step_cases s

theorem step_of_fetch_error (hrun : Claims.Runs s) (hne : s.stream ≠ [])
    (h : s.fetch = .error (.fetchOutOfRange s.pc)) : step s = .next (s.setFault (some (.fetchOutOfRange s.pc))) := by
  obtain ⟨hphase, hfault⟩ := hrun
  simpa [hphase, hfault, hne, h] using step_cases s

theorem finish_next_of_fault_none {len : Nat} (h : t.fault = none) : finish len (.next t) = .next (t.advance len) := by
  simp [finish, h]

theorem finish_next_of_fault {len : Nat} (h : t.fault ≠ none) : finish len (.next t) = .next t :=
  if_pos (Option.isSome_iff_ne_none.mpr h)

/-- Settles O54: an instruction that is fetched fits, so one too long is not; one that fits has its operand bytes. -/
theorem truncatedInstructionFaults : Obligations.TruncatedInstructionFaults := by
  intro s hrun hne
  refine ⟨fun hpc => step_of_fetch_error hrun hne (fetch_fault_of_not_fits fun i _ => ?_), fun op hop => ?_⟩
  · have hpos := length_pos i
    omega
  · obtain ⟨hlt, rfl⟩ := List.getElem?_eq_some_iff.mp hop
    have hdrop := List.drop_eq_getElem_cons hlt
    rw [hdrop]
    refine ⟨fun hlong => step_of_fetch_error hrun hne (fetch_fault_of_not_fits fun i hi => ?_), fun hfits => ?_⟩
    · obtain ⟨rest, hd⟩ := fetch_ok hi
      rw [hdrop] at hd
      rwa [length_of_decode_cons hd]
    · exact exists_decode_cons_of_length_le (by rw [List.length_drop]; omega)

/-- Settles O53: the fetched instruction answers a next state with the PC and the stream of `s`, which the host then
advances or leaves. -/
theorem stepRunsDecodedInstruction : Obligations.StepRunsDecodedInstruction := by
  intro s i rest hrun hd
  obtain ⟨t, ht, -⟩ := exec_allOrNothing i s
  obtain ⟨hpc, hstream, -, -⟩ := noInstructionWritesPcOrStream i s t ht
  obtain ⟨hwf, -⟩ := encodeOfDecode s.cfg _ i rest hd
  have hstep := step_of_fetch_ok hrun (fetch_of_decode hd)
  rw [ht] at hstep
  refine ⟨hwf, t, ht, fun hnone => ?_, fun hfaulted => hstep.trans (finish_next_of_fault hfaulted)⟩
  rw [hstep, finish_next_of_fault_none hnone, ← hpc, ← hstream]
  rfl

end Machine
end Sys2Proof
end

section
/-! SUPPORT. The forms of an instruction: the bytes of a form are those of the encoder, cut short they are no instruction
(30_encoding.md R81, R82), and a form runs the meaning its mnemonic has of its operand. -/

namespace Sys2Proof

variable {cfg : Config} {op : Byte} {f : Format} {i : Instr} {bs operands : List Byte}

/-- An opcode not left out of IMPL_SET has its cell of the map, if there is one. -/
theorem formatOf_of_not_excluded (h : op ∉ cfg.implExcluded) :
    formatOf cfg op = (mapCell op).getD (.f1 (.undefined op)) := by
  cases hcell : mapCell op <;> simp [formatOf, Config.implements, hcell, h]

theorem take_of_length_lt (op : Byte) (h : bs.length + 1 < f.length) : f.take op bs = .error (.missingOperand op) := by
  match f, bs with
  | .f2 _, [] | .f3 _, [] | .f3 _, [_] => rfl
  | .f1 _, _ | .f2 _, _ :: _ | .f3 _, _ :: _ :: _ =>
    simp only [Format.length, List.length_cons] at h
    omega

/-- The bytes of a mapped instruction are one encoding of it, with the length and the operand bytes that its cell of the
map asks for. -/
theorem encodedAs_of_encode (he : encode i = op :: operands) (hmapped : i.mnemonic ≠ .undefined) :
    Claims.EncodedAs i op operands := by
  have hlength : i.length = 1 + operands.length := by rw [Instr.length, he, List.length_cons, Nat.add_comm]
  refine ⟨hlength, fun cfg rest hop => ?_⟩
  obtain ⟨htake, hformat⟩ := Laws.MapCell.statement i op operands rest he fun h => absurd h hmapped
  rw [← formatOf_of_not_excluded hop] at htake hformat
  refine ⟨htake, fun n hn => take_of_length_lt op ?_⟩
  rw [hformat, hlength, List.length_take]
  omega

theorem encodeWord_eq_cons (op : Byte) (w : Word) : encodeWord op w = op :: Claims.bytesOf w := by
  have hhigh : highByte w = BitVec.ofNat 8 (w.toNat / 256) :=
    congrArg (BitVec.ofNat 8) (Nat.shiftRight_eq_div_pow w.toNat 8)
  rw [encodeWord, hhigh]
  rfl

namespace Machine

/-- `f` is a form of the instruction with meaning `meaning`: its bytes are the encoder's, it is in the map, and it runs
the meaning on its operand. -/
structure IsFormOf {α : Type} (meaning : α → State → Result) (f : Claims.Form α) : Prop where
  bytes : encode f.instr = f.opcode :: f.operands
  mapped : f.instr.mnemonic ≠ .undefined
  runs : exec f.instr = meaning f.operand

variable {α : Type} {meaning : α → State → Result} {operand : α}

theorem IsFormOf.encodedAs {f : Claims.Form α} (h : IsFormOf meaning f) :
    Claims.EncodedAs f.instr f.opcode f.operands :=
  encodedAs_of_encode h.bytes h.mapped

/-- A form with one operand byte, from the map's cell of its opcode. -/
theorem isFormOf_byte {g : Byte → Instr} {b : Byte} (hcell : mapCell op = some (.f2 g))
    (hruns : exec (g b) = meaning operand) : IsFormOf meaning ⟨g b, operand, op, [b]⟩ := by
  obtain ⟨hbytes, hmapped⟩ := mapCell_encodes hcell b
  exact ⟨hbytes, hmapped, hruns⟩

/-- A form with an operand word, from the map's cell of its opcode. -/
theorem isFormOf_word {g : Word → Instr} {w : Word} (hcell : mapCell op = some (.f3 g))
    (hruns : exec (g w) = meaning operand) : IsFormOf meaning ⟨g w, operand, op, Claims.bytesOf w⟩ := by
  obtain ⟨hbytes, hmapped⟩ := mapCell_encodes hcell w
  exact ⟨hbytes.trans (encodeWord_eq_cons op w), hmapped, hruns⟩

variable {s : State} {src : Source} {v : Byte}

theorem readSource_of_reads (h : Claims.Reads s src v) : s.readSource src = .ok v := by
  cases src with
  | imm b =>
    obtain rfl : v = b := h
    rfl
  | mem m =>
    obtain ⟨a, k, ha, hk, rfl⟩ := h
    exact readSource_mem ha (placeOf_eq_some_iff.mp hk)

/-- Instructions whose meaning reads the operand and commits `effect`. -/
theorem readRule_of_forms {effect : State → Byte → State} {forms : Byte → Word → List (Claims.Form Source)}
    {meaning : Source → State → Result} (hmeaning : ∀ src s, meaning src s = commit s ((s.readSource src).map (effect s)))
    (hforms : ∀ b w, (forms b w).Forall (IsFormOf meaning)) : Claims.ReadRule effect forms := by
  intro b w s f hf
  have hform := List.forall_iff_forall_mem.mp (hforms b w) f hf
  rw [hform.runs, hmeaning]
  refine ⟨hform.encodedAs, fun v hv => ?_, fun m a hm ha hnone => ?_⟩
  · rw [readSource_of_reads hv]
    rfl
  · rw [hm, readSource_fault ha (placeOf_eq_none_iff.mp hnone)]
    rfl

/-- Instructions whose meaning is the store of `value`. -/
theorem storeRule_of_forms {value : State → Byte} {forms : Byte → Word → List (Claims.Form MemMode)}
    {meaning : MemMode → State → Result} (hmeaning : ∀ m s, meaning m s = store (value s) m s)
    (hforms : ∀ b w, (forms b w).Forall (IsFormOf meaning)) : Claims.StoreRule value forms := by
  intro b w s f hf
  have hform := List.forall_iff_forall_mem.mp (hforms b w) f hf
  rw [hform.runs, hmeaning]
  refine ⟨hform.encodedAs, fun a ha => ?_⟩
  rw [store_eq _ ha]
  refine ⟨fun k hplace => ⟨_, ?_, writesByte_write s.mem k (value s)⟩, fun hnone => ?_⟩
  · rw [memWrite_of_translate _ (placeOf_eq_some_iff.mp hplace)]
    rfl
  · rw [memWrite_fault _ (placeOf_eq_none_iff.mp hnone)]
    rfl

end Machine
end Sys2Proof
end

section
/-! SUPPORT. Load and store instructions (41_load_store.md R140 to R145): each form runs the one meaning of its mnemonic.
For each form the first `rfl` is the map's cell of its opcode and the second is the arm of `exec`. -/

namespace Sys2Proof.Machine

/-- Settles O20: each form runs `lda`, which loads A. -/
theorem ldaLoadsAccumulator : Obligations.LdaLoadsAccumulator := by
  refine readRule_of_forms (meaning := lda) (fun _ _ => rfl) fun b w => ?_
  simp only [List.Forall]
  exact ⟨isFormOf_byte rfl rfl, isFormOf_byte rfl rfl, isFormOf_byte rfl rfl, isFormOf_word rfl rfl,
    isFormOf_word rfl rfl, isFormOf_word rfl rfl, isFormOf_byte rfl rfl, isFormOf_byte rfl rfl⟩

/-- Settles O21: each form runs `ldx`, which loads X. -/
theorem ldxLoadsX : Obligations.LdxLoadsX := by
  refine readRule_of_forms (meaning := ldx) (fun _ _ => rfl) fun b w => ?_
  simp only [List.Forall]
  exact ⟨isFormOf_byte rfl rfl, isFormOf_byte rfl rfl, isFormOf_byte rfl rfl, isFormOf_word rfl rfl,
    isFormOf_word rfl rfl⟩

/-- Settles O22: each form runs `ldy`, which loads Y. -/
theorem ldyLoadsY : Obligations.LdyLoadsY := by
  refine readRule_of_forms (meaning := ldy) (fun _ _ => rfl) fun b w => ?_
  simp only [List.Forall]
  exact ⟨isFormOf_byte rfl rfl, isFormOf_byte rfl rfl, isFormOf_byte rfl rfl, isFormOf_word rfl rfl,
    isFormOf_word rfl rfl⟩

/-- Settles O23: each form runs `sta`, `stx` or `sty`, the store of its register. -/
theorem storeInstructions : Obligations.StoreInstructions := by
  refine ⟨?_, ?_, ?_⟩
  · refine storeRule_of_forms (meaning := sta) (fun _ _ => rfl) fun b w => ?_
    simp only [List.Forall]
    exact ⟨isFormOf_byte rfl rfl, isFormOf_byte rfl rfl, isFormOf_word rfl rfl, isFormOf_word rfl rfl,
      isFormOf_word rfl rfl, isFormOf_byte rfl rfl, isFormOf_byte rfl rfl⟩
  · refine storeRule_of_forms (meaning := stx) (fun _ _ => rfl) fun b w => ?_
    simp only [List.Forall]
    exact ⟨isFormOf_byte rfl rfl, isFormOf_byte rfl rfl, isFormOf_word rfl rfl⟩
  · refine storeRule_of_forms (meaning := sty) (fun _ _ => rfl) fun b w => ?_
    simp only [List.Forall]
    exact ⟨isFormOf_byte rfl rfl, isFormOf_byte rfl rfl, isFormOf_word rfl rfl⟩

end Sys2Proof.Machine
end

section
/-! SUPPORT. The flags that arithmetic leaves, each written as a comparison of the exact result
(40_dispatch_addressing.md R121). -/

namespace Sys2Proof.Machine.Flags

variable (f : Flags) (op1 op2 : Byte)

theorem setArith_eq (r : Int) : f.setArith r op1 op2 = { f with
    n := decide (128 ≤ r % 256)
    z := decide (r % 256 = 0)
    v := decide ((128 ≤ op1.toNat ↔ 128 ≤ op2.toNat) ∧ ¬ (128 ≤ r % 256 ↔ 128 ≤ op1.toNat))
    c := decide (r < -128 ∨ 127 < r) } := by
  obtain ⟨hn, hz, hv, hc, -⟩ := setArithRule f r op1 op2
  -- V's condition holds N's comparison, so it is folded before N's own.
  simp only [← hv, Bool.decide_eq_true]
  simp only [← hn, ← hz, ← hc, Bool.decide_eq_true]
  rfl

theorem setArith_natCast_eq (r : Nat) : f.setArith r op1 op2 = { f with
    n := decide (128 ≤ r % 256)
    z := decide (r % 256 = 0)
    v := decide ((128 ≤ op1.toNat ↔ 128 ≤ op2.toNat) ∧ ¬ (128 ≤ r % 256 ↔ 128 ≤ op1.toNat))
    c := decide (127 < r) } := by
  have hn : 128 ≤ (r : Int) % 256 ↔ 128 ≤ r % 256 := by omega
  have hz : (r : Int) % 256 = 0 ↔ r % 256 = 0 := by omega
  have hc : ((r : Int) < -128 ∨ 127 < (r : Int)) ↔ 127 < r := by omega
  simp only [setArith_eq, hn, hz, hc]

end Sys2Proof.Machine.Flags
end

section
/-! SUPPORT. Logical and arithmetic instructions (42_logic_arith.md R160 to R164): each form runs the one meaning of its
mnemonic. For each form the first `rfl` is the map's cell of its opcode and the second is the arm of `exec`. -/

namespace Sys2Proof.Machine

/-- Settles O24: each form runs `ora`, `andA` or `eor`, the logical operation of its mnemonic. -/
theorem logicalInstructions : Obligations.LogicalInstructions := by
  refine ⟨readRule_of_forms (meaning := ora) (fun _ _ => rfl) fun b w => ?_,
    readRule_of_forms (meaning := andA) (fun _ _ => rfl) fun b w => ?_,
    readRule_of_forms (meaning := eor) (fun _ _ => rfl) fun b w => ?_⟩ <;>
  · simp only [List.Forall]
    exact ⟨isFormOf_byte rfl rfl, isFormOf_byte rfl rfl, isFormOf_byte rfl rfl, isFormOf_word rfl rfl,
      isFormOf_word rfl rfl, isFormOf_word rfl rfl, isFormOf_byte rfl rfl, isFormOf_byte rfl rfl⟩

/-- Settles O25: each form runs `adc`, whose exact result is the cast of the natural sum. -/
theorem adcAddsWithoutCarryIn : Obligations.AdcAddsWithoutCarryIn := by
  refine readRule_of_forms (meaning := adc) (fun src s => ?_) fun b w => ?_
  · simp only [adc, arithmetic, ← Nat.cast_add, BitVec.ofInt_natCast, Flags.setArith_natCast_eq]
    rfl
  · simp only [List.Forall]
    exact ⟨isFormOf_byte rfl rfl, isFormOf_byte rfl rfl, isFormOf_byte rfl rfl, isFormOf_word rfl rfl,
      isFormOf_word rfl rfl, isFormOf_word rfl rfl, isFormOf_byte rfl rfl, isFormOf_byte rfl rfl⟩

/-- Settles O26: each form runs `sbc`, whose exact result is the integer difference. -/
theorem sbcSubtractsWithoutBorrowIn : Obligations.SbcSubtractsWithoutBorrowIn := by
  refine readRule_of_forms (meaning := sbc) (fun src s => ?_) fun b w => ?_
  · simp only [sbc, arithmetic, Flags.setArith_eq]
    rfl
  · simp only [List.Forall]
    exact ⟨isFormOf_byte rfl rfl, isFormOf_byte rfl rfl, isFormOf_byte rfl rfl, isFormOf_word rfl rfl,
      isFormOf_word rfl rfl, isFormOf_word rfl rfl, isFormOf_byte rfl rfl, isFormOf_byte rfl rfl⟩

end Sys2Proof.Machine
end

section
/-! SUPPORT. The read-modify-write and the one-byte forms: an instruction whose meaning is `State.rmw` follows the
statements' rule for it once the values and flags agree, and a one-byte instruction has its cell of the map. -/

namespace Sys2Proof.Machine

variable {op : Byte} {i : Instr}

/-- A form with no operand byte, from the map's cell of its opcode. -/
theorem isFormOf_single {α : Type} {meaning : α → State → Result} {operand : α}
    (hcell : mapCell op = some (.f1 i)) (hruns : exec i = meaning operand) : IsFormOf meaning ⟨i, operand, op, []⟩ := by
  obtain ⟨hbytes, hmapped⟩ := mapCell_encodes hcell
  exact ⟨hbytes, hmapped, hruns⟩

theorem alwaysRule_of_cell {effect : State → State} (hcell : mapCell op = some (.f1 i))
    (hruns : ∀ s, exec i s = .next (effect s)) : Claims.AlwaysRule i op effect := by
  obtain ⟨hbytes, hmapped⟩ := mapCell_encodes hcell
  exact ⟨encodedAs_of_encode hbytes hmapped, hruns⟩

/-- Instructions whose meaning is a read-modify-write with the rule's value; the flags it computes from the old and the
new value are the rule's. -/
theorem modifyRule_of_forms {value : State → Byte → Byte} {flags : State → Byte → Flags}
    {forms : Byte → Word → List (Claims.Form Target)} {meaning : Target → State → Result}
    {f : State → Byte → Byte} {g : State → Byte → Byte → Flags}
    (hmeaning : ∀ t s, meaning t s = commit s (s.rmw t (f s) (g s)))
    (hvalue : ∀ s v, f s v = value s v) (hflags : ∀ s v, g s v (value s v) = flags s v)
    (hforms : ∀ b w, (forms b w).Forall (IsFormOf meaning)) : Claims.ModifyRule value flags forms := by
  obtain rfl : f = value := funext₂ hvalue
  rintro b w s ⟨instr, operand, opcode, operands⟩ hf
  have hform := List.forall_iff_forall_mem.mp (hforms b w) _ hf
  rw [hform.runs, hmeaning]
  refine ⟨hform.encodedAs, ?_⟩
  cases operand with
  | acc =>
    simp only [← hflags]
    rfl
  | mem m =>
    refine fun a ha => ⟨fun k hplace => ⟨_, ?_, writesByte_write s.mem k (f s (s.mem.read k))⟩, fun hnone => ?_⟩
    · rw [rmw_mem ha (placeOf_eq_some_iff.mp hplace), hflags]
      rfl
    · rw [rmw_fault ha (placeOf_eq_none_iff.mp hnone)]
      rfl

end Sys2Proof.Machine
end

section
/-! SUPPORT. The values of the shifts, rotates, increments and decrements as numbers modulo 256
(43_shift_incdec.md R180 to R189). -/

namespace Sys2Proof.Machine

variable (v : Byte) (f : Flags)

theorem shiftLeft_one_eq_ofNat : v <<< 1 = BitVec.ofNat 8 (2 * v.toNat) := by
  apply BitVec.eq_of_toNat_eq
  rw [BitVec.toNat_shiftLeft, BitVec.toNat_ofNat, Nat.shiftLeft_eq, Nat.mul_comm, Nat.pow_one]

theorem ushiftRight_one_eq_ofNat : v >>> 1 = BitVec.ofNat 8 (v.toNat / 2) := by
  apply BitVec.eq_of_toNat_eq
  rw [BitVec.toNat_ushiftRight, Nat.shiftRight_eq_div_pow, BitVec.toNat_ofNat]
  omega

theorem carryByte_shiftLeft_eq_ofNat (k : Nat) : carryByte f <<< k = BitVec.ofNat 8 (2 ^ k * f.c.toNat) := by
  rw [carryByte]
  cases f.c with
  | false => simp
  | true =>
    apply BitVec.eq_of_toNat_eq
    simp [Nat.shiftLeft_eq, -BitVec.ofNat_pow]

/-- The carry is added where it enters at a clear bit. -/
theorem or_carryByte_eq_add {v : Byte} {k : Nat} (hclear : v.getLsbD k = false) :
    v ||| carryByte f <<< k = v + carryByte f <<< k := by
  refine (BitVec.add_eq_or_of_and_eq_zero _ _ ?_).symm
  rw [carryByte]
  cases f.c with
  | false => simp
  | true => simp [← BitVec.twoPow_eq, BitVec.and_twoPow, hclear]

theorem rotateLeft_eq_ofNat : v <<< 1 ||| carryByte f = BitVec.ofNat 8 (2 * v.toNat + f.c.toNat) := by
  have hclear : (v <<< 1).getLsbD 0 = false := by simp
  have hadd := or_carryByte_eq_add f hclear
  have hcarry := carryByte_shiftLeft_eq_ofNat f 0
  rw [BitVec.shiftLeft_zero] at hadd hcarry
  rw [hadd, hcarry, shiftLeft_one_eq_ofNat, BitVec.ofNat_add, Nat.pow_zero, Nat.one_mul]

theorem rotateRight_eq_ofNat : v >>> 1 ||| carryByte f <<< 7 = BitVec.ofNat 8 (v.toNat / 2 + 128 * f.c.toNat) := by
  have hclear : (v >>> 1).getLsbD 7 = false := by simp
  rw [or_carryByte_eq_add f hclear, ushiftRight_one_eq_ofNat, carryByte_shiftLeft_eq_ofNat, BitVec.ofNat_add]
  rfl

theorem add_one_eq_ofNat : v + 1 = BitVec.ofNat 8 (v.toNat + 1) := by
  rw [BitVec.ofNat_add, BitVec.ofNat_toNat, BitVec.setWidth_eq]
  rfl

theorem sub_one_eq_ofNat : v - 1 = BitVec.ofNat 8 (v.toNat + 255) := by
  rw [BitVec.ofNat_add, BitVec.ofNat_toNat, BitVec.setWidth_eq]
  exact BitVec.sub_eq_add_neg v 1

theorem ofNat_half_eq_zero_iff : BitVec.ofNat 8 (v.toNat / 2) = 0 ↔ v.toNat / 2 = 0 := by
  have hhalf : v.toNat / 2 < 256 := by omega
  rw [← BitVec.toNat_inj, BitVec.toNat_ofNat, Nat.mod_eq_of_lt hhalf]
  rfl

end Sys2Proof.Machine
end

section
/-! SUPPORT. Shift, rotate, increment and decrement instructions (43_shift_incdec.md R180 to R189): each form runs the
one meaning of its mnemonic. For each form the first proof is the map's cell of its opcode and the second is the arm of
`exec`. -/

namespace Sys2Proof.Machine

/-- Settles O27: each form runs `asl`, whose shifted value is the double. -/
theorem aslShiftsLeft : Obligations.AslShiftsLeft := by
  refine modifyRule_of_forms (meaning := asl) (fun _ _ => rfl) (fun _ => shiftLeft_one_eq_ofNat) (fun _ _ => rfl)
    fun b w => ?_
  simp only [List.Forall]
  exact ⟨isFormOf_single rfl rfl, isFormOf_byte rfl rfl, isFormOf_byte rfl rfl, isFormOf_word rfl rfl,
    isFormOf_word rfl rfl⟩

/-- Settles O28: each form runs `lsr`, whose shifted value is the half. -/
theorem lsrShiftsRight : Obligations.LsrShiftsRight := by
  refine modifyRule_of_forms (meaning := lsr) (fun _ _ => rfl) (fun _ => ushiftRight_one_eq_ofNat) (fun s v => ?_)
    fun b w => ?_
  · simp only [Flags.setNZ, ofNat_half_eq_zero_iff]
  · simp only [List.Forall]
    exact ⟨isFormOf_single rfl rfl, isFormOf_byte rfl rfl, isFormOf_byte rfl rfl, isFormOf_word rfl rfl,
      isFormOf_word rfl rfl⟩

/-- Settles O29: each form runs `rol`, whose rotated value is the double plus the old carry. -/
theorem rolRotatesLeftThroughCarry : Obligations.RolRotatesLeftThroughCarry := by
  refine modifyRule_of_forms (meaning := rol) (fun _ _ => rfl) (fun s v => rotateLeft_eq_ofNat v s.flags)
    (fun _ _ => rfl) fun b w => ?_
  simp only [List.Forall]
  exact ⟨isFormOf_single rfl rfl, isFormOf_byte rfl rfl, isFormOf_byte rfl rfl, isFormOf_word rfl rfl,
    isFormOf_word rfl rfl⟩

/-- Settles O30: each form runs `ror`, whose rotated value is the half plus 128 times the old carry. -/
theorem rorRotatesRightThroughCarry : Obligations.RorRotatesRightThroughCarry := by
  refine modifyRule_of_forms (meaning := ror) (fun _ _ => rfl) (fun s v => rotateRight_eq_ofNat v s.flags)
    (fun _ _ => rfl) fun b w => ?_
  simp only [List.Forall]
  exact ⟨isFormOf_single rfl rfl, isFormOf_byte rfl rfl, isFormOf_byte rfl rfl, isFormOf_word rfl rfl,
    isFormOf_word rfl rfl⟩

/-- The read-modify-write that sets N and Z from `f` of the operand; INC and DEC are its memory forms. -/
def modifyNZ (f : Byte → Byte) (t : Target) (s : State) : Result := commit s (s.rmw t f fun _ r => s.flags.setNZ r)

theorem inc_eq_modifyNZ (m : MemMode) : inc m = modifyNZ (· + 1) (.mem m) := rfl

theorem dec_eq_modifyNZ (m : MemMode) : dec m = modifyNZ (· - 1) (.mem m) := rfl

/-- Settles O31: each form runs `inc` on its operand. -/
theorem incIncrementsMemory : Obligations.IncIncrementsMemory := by
  refine modifyRule_of_forms (meaning := modifyNZ (· + 1)) (fun _ _ => rfl) (fun _ => add_one_eq_ofNat) (fun _ _ => rfl)
    fun b w => ?_
  simp only [List.Forall]
  exact ⟨isFormOf_byte rfl (inc_eq_modifyNZ _), isFormOf_byte rfl (inc_eq_modifyNZ _),
    isFormOf_word rfl (inc_eq_modifyNZ _), isFormOf_word rfl (inc_eq_modifyNZ _)⟩

/-- Settles O32: each form runs `dec` on its operand; subtracting 1 is adding 255 modulo 256. -/
theorem decDecrementsMemory : Obligations.DecDecrementsMemory := by
  refine modifyRule_of_forms (meaning := modifyNZ (· - 1)) (fun _ _ => rfl) (fun _ => sub_one_eq_ofNat) (fun _ _ => rfl)
    fun b w => ?_
  simp only [List.Forall]
  exact ⟨isFormOf_byte rfl (dec_eq_modifyNZ _), isFormOf_byte rfl (dec_eq_modifyNZ _),
    isFormOf_word rfl (dec_eq_modifyNZ _), isFormOf_word rfl (dec_eq_modifyNZ _)⟩

/-- Settles O33: each instruction is `stepReg` on the new value of its register. -/
theorem indexStepInstructions : Obligations.IndexStepInstructions :=
  ⟨alwaysRule_of_cell rfl fun s => congrArg (stepReg State.setX · s) (add_one_eq_ofNat s.x),
    alwaysRule_of_cell rfl fun s => congrArg (stepReg State.setY · s) (add_one_eq_ofNat s.y),
    alwaysRule_of_cell rfl fun s => congrArg (stepReg State.setX · s) (sub_one_eq_ofNat s.x),
    alwaysRule_of_cell rfl fun s => congrArg (stepReg State.setY · s) (sub_one_eq_ofNat s.y)⟩

end Sys2Proof.Machine
end

section
/-! SUPPORT. The stack (10_state.md R26, 44_transfer_stack_flag.md section 2): SP as a number, what a push and a pull
answer at a place of MEM and outside it, and a pull after a push. X widened to SP is beside them (R205). -/

namespace Sys2Proof.Machine

variable {s t : State} {k : Nat}

/-! ## SP and X as numbers -/

theorem word_add_one_eq_ofNat (w : Word) : w + 1 = BitVec.ofNat 16 (w.toNat + 1) := BitVec.add_def w 1

theorem word_sub_one_eq_ofNat (w : Word) : w - 1 = BitVec.ofNat 16 (w.toNat + 65535) := by
  rw [Nat.add_comm]
  exact BitVec.sub_def w 1

/-- Page 1 is put over the widened byte where that byte has no bit. -/
theorem pageOne_or_zeroExtend_eq_ofNat (x : Byte) : 0x0100 ||| x.zeroExtend 16 = BitVec.ofNat 16 (256 + x.toNat) := by
  have hpage : 256 + x.toNat = 256 ||| x.toNat := Nat.two_pow_add_eq_or_of_lt x.isLt 1
  rw [hpage, BitVec.ofNat_or, BitVec.ofNat_toNat]
  rfl

/-! ## Pushes -/

theorem commit_push_of_translate (v : Byte) (hk : translateAddress s.cfg s.sp = .ok k) :
    commit s (s.push v) = .next ((s.setMem (s.mem.write k v)).setSp (s.sp - 1)) := by
  rw [push_of_translate v hk, commit_ok]

/-- A push that completes or faults, by the place of SP. -/
theorem commit_push_rule (s : State) (v : Byte) :
    (∀ k, Claims.placeOf s s.sp = some k →
      ∃ m', commit s (s.push v) = .next { s with mem := m', sp := BitVec.ofNat 16 (s.sp.toNat + 65535) }
        ∧ Claims.WritesByte s.mem m' k v)
      ∧ (Claims.placeOf s s.sp = none → commit s (s.push v) = .next (Claims.addressFault s s.sp)) := by
  rw [← word_sub_one_eq_ofNat]
  refine ⟨fun k hplace => ⟨s.mem.write k v, ?_, writesByte_write s.mem k v⟩, fun hnone => ?_⟩
  · exact commit_push_of_translate v (placeOf_eq_some_iff.mp hplace)
  · rw [push_fault v (placeOf_eq_none_iff.mp hnone)]
    rfl

/-! ## Pulls -/

theorem pull_of_translate (hk : translateAddress s.cfg (s.sp + 1) = .ok k) :
    s.pull = .ok (s.mem.read k, s.setSp (s.sp + 1)) := by
  rw [State.pull, memRead_of_translate hk]
  rfl

theorem pull_fault (hf : Faults s (s.sp + 1)) : s.pull = .error (.addressOutOfRange (s.sp + 1)) := by
  rw [State.pull, memRead_fault hf]
  rfl

/-- An instruction that pulls completes or faults, by the place of SP + 1. -/
theorem commit_pull_rule (s : State) (g : Byte × State → State) :
    let a : Word := BitVec.ofNat 16 (s.sp.toNat + 1)
    (∀ k, Claims.placeOf s a = some k → commit s (s.pull.map g) = .next (g (s.mem.read k, s.setSp a)))
      ∧ (Claims.placeOf s a = none → commit s (s.pull.map g) = .next (Claims.addressFault s a)) := by
  rw [← word_add_one_eq_ofNat]
  refine ⟨fun k hplace => ?_, fun hnone => ?_⟩
  · rw [pull_of_translate (placeOf_eq_some_iff.mp hplace)]
    rfl
  · rw [pull_fault (placeOf_eq_none_iff.mp hnone)]
    rfl

/-- After a push of `v`, and whatever else has changed since but SP, MEM and the parameters, a pull gives `v` back and
SP its old value. -/
theorem commit_pull_of_pushed {v : Byte} {g : Byte × State → State} (hk : translateAddress s.cfg s.sp = .ok k)
    (hcfg : t.cfg = s.cfg) (hsp : t.sp = s.sp - 1) (hmem : t.mem = s.mem.write k v) :
    commit t (t.pull.map g) = .next (g (v, t.setSp s.sp)) := by
  have hup : t.sp + 1 = s.sp := by rw [hsp, BitVec.sub_add_cancel]
  have hplace : translateAddress t.cfg (t.sp + 1) = .ok k := by rwa [hup, hcfg]
  rw [pull_of_translate hplace, hup, hmem, Memory.read_write_same]
  rfl

end Sys2Proof.Machine
end

section
/-! SUPPORT. Transfer, stack and flag instructions (44_transfer_stack_flag.md R200 to R226). The first `rfl` of an
instruction is the map's cell of its opcode; a second one is its arm of `exec`. -/

namespace Sys2Proof.Machine

theorem encodedAs_of_cell {op : Byte} {i : Instr} (hcell : mapCell op = some (.f1 i)) : Claims.EncodedAs i op [] := by
  obtain ⟨hbytes, hmapped⟩ := mapCell_encodes hcell
  exact encodedAs_of_encode hbytes hmapped

theorem pack_eq_ofNat (f : Flags) : f.pack = BitVec.ofNat 8 (Claims.packedValue f) := by
  rw [← pack_toNat, BitVec.ofNat_toNat, BitVec.setWidth_eq]

/-! ## Single stack instructions -/

/-- Settles O36: PHA is a push of A. -/
theorem phaPushesAccumulator : Obligations.PhaPushesAccumulator :=
  ⟨encodedAs_of_cell rfl, fun s => commit_push_rule s s.a⟩

/-- Settles O37: PHP is a push of the packed flags. -/
theorem phpPushesStatus : Obligations.PhpPushesStatus := by
  refine ⟨encodedAs_of_cell rfl, fun s => ?_⟩
  rw [← pack_eq_ofNat]
  exact commit_push_rule s s.flags.pack

/-- Settles O38: PLA is a pull into A, with N and Z by PLA_SETS_NZ. -/
theorem plaPullsAccumulator : Obligations.PlaPullsAccumulator :=
  ⟨encodedAs_of_cell rfl, rfl, fun s => commit_pull_rule s _⟩

/-- Settles O39: PLP is a pull of the unpacked flags. -/
theorem plpPullsStatus : Obligations.PlpPullsStatus :=
  ⟨encodedAs_of_cell rfl, fun s => commit_pull_rule s _⟩

/-! ## A push and a pull -/

/-- Settles O40: the pull gives the packed flags back, and unpacking them exchanges N and V. -/
theorem phpThenPlpExchangesSignAndOverflow : Obligations.PhpThenPlpExchangesSignAndOverflow := by
  intro s hin
  have hk := translateAddress_of_lt s.cfg hin
  exact ⟨_, _, commit_push_of_translate s.flags.pack hk, commit_pull_of_pushed hk rfl rfl rfl,
    Flags.unpack_pack s.flags, rfl, fun j hj => Memory.read_write_other s.mem _ hj⟩

/-- Settles O41: the pull gives the pushed A back, and without PLA_SETS_NZ it writes no flag. -/
theorem phaThenPlaRestoresAccumulator : Obligations.PhaThenPlaRestoresAccumulator := by
  intro s v hin hnz
  have hk := translateAddress_of_lt s.cfg hin
  refine ⟨_, _, commit_push_of_translate s.a hk, commit_pull_of_pushed hk rfl rfl rfl, ?_⟩
  have hflags : (if s.cfg.plaSetsNZ then s.flags.setNZ s.a else s.flags) = s.flags := by simp [hnz]
  exact congrArg (s.setMem (s.mem.write s.sp.toNat s.a)).setFlags hflags

/-! ## Transfers and flags -/

/-- Settles O34: each instruction is `transfer` from its source. -/
theorem transferInstructions : Obligations.TransferInstructions :=
  ⟨alwaysRule_of_cell rfl fun _ => rfl, alwaysRule_of_cell rfl fun _ => rfl, alwaysRule_of_cell rfl fun _ => rfl,
    alwaysRule_of_cell rfl fun _ => rfl⟩

/-- TXS by the number that TXS_MODE makes of X. -/
theorem execTxs_eq (s : State) : execTxs s = .next (s.setSp (BitVec.ofNat 16 (Claims.widened s.cfg s.x))) := by
  rw [execTxs, Claims.widened]
  cases s.cfg.txsMode with
  | zext => simp only [BitVec.ofNat_toNat]
  | page1 => simp only [pageOne_or_zeroExtend_eq_ofNat]

/-- Settles O35: TSX takes the low byte of SP, and TXS is split by TXS_MODE. -/
theorem stackPointerTransfers : Obligations.StackPointerTransfers :=
  ⟨alwaysRule_of_cell rfl fun _ => rfl, alwaysRule_of_cell rfl execTxs_eq, rfl⟩

/-- Settles O42: each instruction is `flagOp` on the flags with its one flag written. -/
theorem flagInstructions : Obligations.FlagInstructions :=
  ⟨alwaysRule_of_cell rfl fun _ => rfl, alwaysRule_of_cell rfl fun _ => rfl, alwaysRule_of_cell rfl fun _ => rfl,
    alwaysRule_of_cell rfl fun _ => rfl, alwaysRule_of_cell rfl fun _ => rfl, alwaysRule_of_cell rfl fun _ => rfl,
    alwaysRule_of_cell rfl fun _ => rfl⟩

end Sys2Proof.Machine
end

section
/-! SUPPORT. The inert instructions (45_inert.md): each form runs `inert`, the `skip` of R240, on no operand at all. For
each form the first `rfl` is the map's cell of its opcode and the second is the arm of `exec`. -/

namespace Sys2Proof.Machine

/-- Instructions whose meaning is `inert`, whatever their operand bytes. -/
theorem inertRule_of_forms {forms : Byte → Word → List (Claims.Form Unit)}
    (hforms : ∀ b w, (forms b w).Forall (IsFormOf fun _ => inert)) : Claims.InertRule forms := by
  intro b w s f hf
  have hform := List.forall_iff_forall_mem.mp (hforms b w) f hf
  exact ⟨hform.encodedAs, congrFun hform.runs s⟩

/-- Settles O43: BRK and each branch run `inert`, which looks at neither the flags nor the offset. -/
theorem breakAndBranchesAreInert : Obligations.BreakAndBranchesAreInert := by
  refine inertRule_of_forms fun b _ => ?_
  simp only [List.Forall]
  exact ⟨isFormOf_single rfl rfl, isFormOf_byte rfl rfl, isFormOf_byte rfl rfl, isFormOf_byte rfl rfl,
    isFormOf_byte rfl rfl, isFormOf_byte rfl rfl, isFormOf_byte rfl rfl, isFormOf_byte rfl rfl, isFormOf_byte rfl rfl⟩

/-- Settles O44: each jump and return runs `inert`, which pushes nothing and reads no pointer. -/
theorem jumpsAndReturnsAreInert : Obligations.JumpsAndReturnsAreInert := by
  refine inertRule_of_forms fun _ w => ?_
  simp only [List.Forall]
  exact ⟨isFormOf_word rfl rfl, isFormOf_word rfl rfl, isFormOf_word rfl rfl, isFormOf_single rfl rfl,
    isFormOf_single rfl rfl⟩

/-- Settles O45: each form of CMP, CPX, CPY and BIT runs `inert`, which resolves no address and writes no flag. -/
theorem compareAndBitAreInert : Obligations.CompareAndBitAreInert := by
  refine inertRule_of_forms fun b w => ?_
  simp only [List.Forall]
  exact ⟨isFormOf_byte rfl rfl, isFormOf_byte rfl rfl, isFormOf_byte rfl rfl, isFormOf_word rfl rfl,
    isFormOf_word rfl rfl, isFormOf_word rfl rfl, isFormOf_byte rfl rfl, isFormOf_byte rfl rfl,
    isFormOf_byte rfl rfl, isFormOf_byte rfl rfl, isFormOf_word rfl rfl, isFormOf_byte rfl rfl,
    isFormOf_byte rfl rfl, isFormOf_word rfl rfl, isFormOf_byte rfl rfl, isFormOf_word rfl rfl⟩

end Sys2Proof.Machine
end

section
/-! SUPPORT. Exceptions (60_exceptions.md R301, R303): a zero-page address lies inside MEM, so the forms on it keep
FAULT, as the forms that touch no memory do; and a latched fault stops a run. -/

namespace Sys2Proof.Machine

variable {s t : State} {m : MemMode}

/-! ## The operations that keep FAULT -/

/-- The modes whose address is a zero-page byte, alone or plus an index register. -/
def MemMode.OnZeroPage : MemMode → Prop
  | .zp _ | .zpX _ | .zpY _ => True
  | _ => False

/-- A byte, or the sum of two, is below 512 and so an index of MEM as it stands. -/
theorem ea_translates_of_onZeroPage (s : State) (hm : m.OnZeroPage) :
    ∃ a k, s.ea m = .ok a ∧ translateAddress s.cfg a = .ok k := by
  have hbyte (b : Byte) : (zext16 b).toNat < memSize := by
    have hb := b.isLt
    rw [zext16_toNat, memSize]
    omega
  have hsum (b x : Byte) : (zext16 b + zext16 x).toNat < memSize := by
    have hb := b.isLt
    have hx := x.isLt
    rw [zext16_add_toNat, memSize]
    omega
  cases m with
  | zp b => exact ⟨_, _, rfl, translateAddress_of_lt s.cfg (hbyte b)⟩
  | zpX b => exact ⟨_, _, rfl, translateAddress_of_lt s.cfg (hsum b s.x)⟩
  | zpY b => exact ⟨_, _, rfl, translateAddress_of_lt s.cfg (hsum b s.y)⟩
  | abs _ | absX _ | absY _ | indX _ | indY _ => exact hm.elim

/-- An instruction that always completes. -/
theorem next_fault {u : State} (h : (.next u : Result) = .next t) (hu : u.fault = s.fault) : t.fault = s.fault := by
  cases h
  exact hu

/-- The loads, the logical and the arithmetic instructions on the zero page. -/
theorem zeroPageRead_fault {g : Byte → State} (h : commit s ((s.readSource (.mem m)).map g) = .next t)
    (hm : m.OnZeroPage) (hg : ∀ v, (g v).fault = s.fault) : t.fault = s.fault := by
  obtain ⟨a, k, ha, hk⟩ := ea_translates_of_onZeroPage s hm
  rw [readSource_mem ha hk] at h
  exact next_fault h (hg _)

theorem zeroPageStore_fault {v : Byte} (h : store v m s = .next t) (hm : m.OnZeroPage) : t.fault = s.fault := by
  obtain ⟨a, k, ha, hk⟩ := ea_translates_of_onZeroPage s hm
  rw [store_eq v ha, memWrite_of_translate v hk] at h
  exact next_fault h rfl

/-- The shifts, the rotates, INC and DEC on the zero page. -/
theorem zeroPageRmw_fault {f : Byte → Byte} {flags : Byte → Byte → Flags}
    (h : commit s (s.rmw (.mem m) f flags) = .next t) (hm : m.OnZeroPage) : t.fault = s.fault := by
  obtain ⟨a, k, ha, hk⟩ := ea_translates_of_onZeroPage s hm
  rw [rmw_mem ha hk] at h
  exact next_fault h rfl

/-- Settles O47: a form outside the list is on the zero page or touches no memory, and keeps FAULT. The word of a listed
`(zp,X)` or `(zp),Y` form, the byte of a listed absolute one and both of a stack instruction are arbitrary. -/
theorem onlyMemoryInstructionsFault : Obligations.OnlyMemoryInstructionsFault := by
  intro i s t h hlatch
  cases i with
  | ldaAbs w | ldaAbsX w | ldaAbsY w | ldxAbs w | ldxAbsY w | ldyAbs w | ldyAbsX w | staAbs w | staAbsX w | staAbsY w
  | stxAbs w | styAbs w | oraAbs w | oraAbsX w | oraAbsY w | andAbs w | andAbsX w | andAbsY w | eorAbs w | eorAbsX w
  | eorAbsY w | adcAbs w | adcAbsX w | adcAbsY w | sbcAbs w | sbcAbsX w | sbcAbsY w | aslAbs w | aslAbsX w | lsrAbs w
  | lsrAbsX w | rolAbs w | rolAbsX w | rorAbs w | rorAbsX w | incAbs w | incAbsX w | decAbs w | decAbsX w =>
    exact ⟨0, w, by simp⟩
  | ldaIndX b | ldaIndY b | staIndX b | staIndY b | oraIndX b | oraIndY b | andIndX b | andIndY b | eorIndX b
  | eorIndY b | adcIndX b | adcIndY b | sbcIndX b | sbcIndY b =>
    exact ⟨b, 0, by simp⟩
  | pha | php | pla | plp => exact ⟨0, 0, by simp⟩
  | ldaZp _ | ldaZpX _ | ldxZp _ | ldxZpY _ | ldyZp _ | ldyZpX _ | oraZp _ | oraZpX _ | andZp _ | andZpX _ | eorZp _
  | eorZpX _ | adcZp _ | adcZpX _ | sbcZp _ | sbcZpX _ =>
    exact absurd (zeroPageRead_fault h trivial fun _ => rfl) hlatch
  | staZp _ | staZpX _ | stxZp _ | stxZpY _ | styZp _ | styZpX _ =>
    exact absurd (zeroPageStore_fault h trivial) hlatch
  | aslZp _ | aslZpX _ | lsrZp _ | lsrZpX _ | rolZp _ | rolZpX _ | rorZp _ | rorZpX _ | incZp _ | incZpX _ | decZp _
  | decZpX _ =>
    exact absurd (zeroPageRmw_fault h trivial) hlatch
  | txs => exact absurd (next_fault ((execTxs_eq s).symm.trans h) rfl) hlatch
  | ldaImm _ | ldxImm _ | ldyImm _ | oraImm _ | andImm _ | eorImm _ | adcImm _ | sbcImm _ | aslAcc | lsrAcc | rolAcc
  | rorAcc | inx | iny | dex | dey | tax | txa | tay | tya | tsx | clc | sec | cli | sei | cld | sed | clv | brk
  | bpl _ | bmi _ | bvc _ | bvs _ | bcc _ | bcs _ | bne _ | beq _ | jmpAbs _ | jmpInd _ | jsr _ | rts | rti | cmpImm _
  | cmpZp _ | cmpZpX _ | cmpAbs _ | cmpAbsX _ | cmpAbsY _ | cmpIndX _ | cmpIndY _ | cpxImm _ | cpxZp _ | cpxAbs _
  | cpyImm _ | cpyZp _ | cpyAbs _ | bitZp _ | bitAbs _ | undefined _ =>
    exact absurd (next_fault h rfl) hlatch

/-! ## The latch stops the run -/

/-- Settles O55: of the ways a step can go, a running state with a latched fault has only the fault; Reset clears the latch. -/
theorem faultedCoreTakesNoStep : Obligations.FaultedCoreTakesNoStep := by
  intro s f hphase hfault
  have hstep : step s = .fault f := by simpa [hphase, hfault] using step_cases s
  exact ⟨hstep, rfl⟩

end Sys2Proof.Machine
end

section
/-! SUPPORT. Launch and the end of a run (70_reset_and_hazards.md R334, R336, R337): a step of a run under way ends it,
or raises PC and keeps it inside the stream. -/

namespace Sys2Proof.Machine

variable {s t : State} {l n : Nat}

/-! ## Words for the states of a run -/

/-- A run under way, with a byte of the stream at PC. -/
def AtByte (s : State) : Prop := Claims.Runs s ∧ s.pc.toNat < s.stream.length

/-- `t` has ended Normal, with PC at the length `l` of the stream, or Faulted. -/
def EndedAt (l : Nat) (t : State) : Prop := t.finished ∧ (t.fault = none → t.pc = BitVec.ofNat 16 l)

/-- A run from `s` has ended after at most `n` steps. -/
def EndsWithin (n : Nat) (s : State) : Prop :=
  ∃ k t, k ≤ n ∧ core.run k s = .next t ∧ EndedAt s.stream.length t

theorem setFault_endedAt (f : Fault) : EndedAt l (s.setFault (some f)) := ⟨.inr rfl, nofun⟩

theorem run_succ_of_step (k : Nat) (h : step s = .next t) : core.run (k + 1) s = core.run k t := by
  have hcore : core.step s = .next t := h
  simp only [Host.Core.run, hcore]

theorem endsWithin_of_step_endedAt (h : step s = .next t) (hend : EndedAt s.stream.length t) : EndsWithin (n + 1) s :=
  ⟨1, t, Nat.le_add_left 1 n, run_succ_of_step 0 h, hend⟩

theorem endsWithin_of_step (h : step s = .next t) (hstream : t.stream = s.stream) (ht : EndsWithin n t) :
    EndsWithin (n + 1) s := by
  obtain ⟨k, u, hk, hrun, hend⟩ := ht
  exact ⟨k + 1, u, Nat.succ_le_succ hk, (run_succ_of_step k h).trans hrun, hstream ▸ hend⟩

/-! ## One step -/

/-- The host's advance by an instruction that lies in the stream: the run ends with PC at L, or goes on further up. -/
theorem advance_endedAt_or_atByte {len : Nat} (hlen : s.stream.length ≤ maxStream) (hfault : s.fault = none)
    (hpos : 1 ≤ len) (hfits : s.pc.toNat + len ≤ s.stream.length) :
    EndedAt s.stream.length (s.advance len)
      ∨ AtByte (s.advance len) ∧ s.pc.toNat < (s.advance len).pc.toNat := by
  rcases hfits.eq_or_lt with hend | hin
  · have hphase : (s.advance len).phase = .ended := if_pos hend.ge
    exact .inl ⟨.inl hphase, fun _ => congrArg (BitVec.ofNat 16) hend⟩
  · have hphase : (s.advance len).phase = .running := if_neg hin.not_ge
    have hpc : (s.advance len).pc.toNat = s.pc.toNat + len := by
      rw [advance_pc, BitVec.toNat_ofNat, Nat.mod_eq_of_lt (hin.trans_le hlen)]
    exact .inr ⟨⟨⟨hphase, hfault⟩, hpc.trans_lt hin⟩, by omega⟩

/-- The step takes a fetch fault or an address fault, or completes an instruction. -/
theorem step_endedAt_or_atByte (hlen : s.stream.length ≤ maxStream) (hs : AtByte s) :
    ∃ t, step s = .next t ∧ t.stream = s.stream
      ∧ (EndedAt s.stream.length t ∨ AtByte t ∧ s.pc.toNat < t.pc.toNat) := by
  obtain ⟨hrun, hin⟩ := hs
  cases hfetch : s.fetch with
  | error f =>
    obtain rfl := fetch_error hfetch
    have hne : s.stream ≠ [] := List.ne_nil_of_length_pos (Nat.zero_lt_of_lt hin)
    exact ⟨_, step_of_fetch_error hrun hne hfetch, rfl, .inl (setFault_endedAt _)⟩
  | ok i =>
    have hstep := step_of_fetch_ok hrun hfetch
    have hfits := fetch_fits hfetch
    obtain ⟨u, hu, hsame | ⟨a, -, rfl⟩⟩ := exec_allOrNothing i s
    · have hnone : u.fault = none := hsame.fault.trans hrun.2
      rw [hu, finish_next_of_fault_none hnone] at hstep
      rw [← hsame.stream, ← hsame.pc] at hfits ⊢
      rw [← hsame.stream] at hlen
      exact ⟨_, hstep, rfl, advance_endedAt_or_atByte hlen hnone (length_pos i) hfits⟩
    · rw [hu, finish_next_of_fault (Option.some_ne_none _)] at hstep
      exact ⟨_, hstep, rfl, .inl (setFault_endedAt _)⟩

/-! ## Whole runs -/

/-- By induction on a bound of the bytes from PC to the end of the stream. -/
theorem endsWithin_of_length_le_add (hlen : s.stream.length ≤ maxStream) (hs : AtByte s)
    (hn : s.stream.length ≤ s.pc.toNat + n) : EndsWithin n s := by
  induction n generalizing s with
  | zero => exact absurd hs.2 (Nat.not_lt_of_le hn)
  | succ n ih =>
    obtain ⟨t, hstep, hstream, hend | ⟨ht, hup⟩⟩ := step_endedAt_or_atByte hlen hs
    · exact endsWithin_of_step_endedAt hstep hend
    · refine endsWithin_of_step hstep hstream (ih (hstream ▸ hlen) ht ?_)
      rw [hstream]
      omega

/-- Settles O57: of the ways a step can go, each of these states has only its own. -/
theorem runEndIsFinal : Obligations.RunEndIsFinal := by
  intro s
  refine ⟨fun hfault hphase hstream => ?_, fun hphase => ⟨fun hfault => ?_, fun f hfault => ?_⟩⟩
  · have hstep : step s = .next (s.setPhase .ended) := by simpa [hfault, hphase, hstream] using step_cases s
    exact hstep
  · simpa [hfault, hphase] using step_cases s
  · simpa [hfault, hphase] using step_cases s

/-- Settles O60: the first step ends the run of an empty stream, and the bytes from PC = 0 on bound any other run. -/
theorem everyRunEnds : Obligations.EveryRunEnds := by
  intro cfg stream hlen
  change EndsWithin (max 1 stream.length) (State.launch cfg stream)
  cases stream with
  | nil =>
    obtain ⟨hempty, -⟩ := runEndIsFinal (State.launch cfg [])
    exact endsWithin_of_step_endedAt (hempty rfl rfl rfl) ⟨.inl rfl, fun _ => rfl⟩
  | cons b bs =>
    have hs : AtByte (State.launch cfg (b :: bs)) := ⟨⟨rfl, rfl⟩, Nat.succ_pos _⟩
    exact endsWithin_of_length_le_add hlen hs ((Nat.le_max_right _ _).trans (Nat.le_add_left _ _))

/-- Settles O8: Launch is Reset with MEM written, and an image without cells reads as 0x00. -/
theorem launchIsResetWithImage : Obligations.LaunchIsResetWithImage := by
  refine fun s => ⟨rfl, fun hempty k => ?_, rfl⟩
  have hmem : (State.launch s.cfg s.stream).mem = [] := hempty
  rw [hmem]
  exact Memory.read_nil k

end Sys2Proof.Machine
end
